-- ==== Sys2Proof/Word.lean ====
section
/-! DEFINITION. The two bit-vector types of CSA64: 64-bit CRC words and registers (rule R4) and buffer bytes. -/

namespace Sys2Proof

/-- A CRC value, a table entry, an accumulator or a host register: W = 64 bits, unsigned (rules R4, R10). -/
abbrev Word := BitVec 64

/-- One byte of buffer memory, or a column index of the table (rules R5, R51). -/
abbrev Byte := BitVec 8

end Sys2Proof
end

