-- ==== Sys2Proof/Config.lean ====
section
/-! DEFINITION. What is fixed for one CSA64 instance (ENDIAN, CRC_FN, ADDR_W: rules R6, R7, R8) as plain data,
and the free values: constants without a body for what the spec leaves unspecified or to a free draw. -/

namespace Sys2Proof

/-- A storage array of exactly `n` entries, entry 0 first. -/
structure Bank (α : Type) (n : Nat) where
  entries : List α
  size : entries.length = n
deriving DecidableEq, Repr

/-- The byte-order strap ENDIAN (rule R6). -/
inductive Endian where
  | le
  | be
deriving DecidableEq, Repr

/-- The parameters of one instance. They are data of the state, so that a claim over all states is a claim over
both ENDIAN values, every CRC_FN and every ADDR_W, as rules R6 to R8 ask. CRC_FN is held as its 256 values
`CRC_FN(0, [n])`, the only ones the block ever evaluates (rule R7). DEDUCED, log entry 2. -/
structure Config where
  /-- ENDIAN (rule R6). -/
  endian : Endian
  /-- Entry n is `CRC_FN(0, [n])` (rules R7, R101). -/
  crcByte : Bank Word 256
  /-- ADDR_W (rule R8). -/
  addrW : Nat
deriving DecidableEq, Repr

/-- Rule R8: 1 <= ADDR_W <= 64. -/
abbrev Config.wf (c : Config) : Prop := 1 ≤ c.addrW ∧ c.addrW ≤ 64

/-- Free value: acc once it is unspecified (rules R39, R127, R210). Log entry 5. -/
opaque Config.freeAcc : Nat → Word

/-- Free value: cur once it is unspecified, between 0 and the given bound (rules R40, R127, R210). Log entry 5. -/
opaque Config.freeCur (bound : Nat) : Nat → Fin (bound + 1)

/-- Free value: rem once it is unspecified, a 64-bit count (rules R41, R127, R210). Log entry 5. -/
opaque Config.freeRem : Nat → Word

/-- Free value: a TABLE entry after a reset event (rules R36, R210), by draw, row and column. Log entry 6. -/
opaque Config.freeEntry : Nat → Fin 8 → Fin 256 → Word

/-- Free value: which of the `n + 1` candidates a raced byte read returns (rule R66). Log entry 7. -/
opaque Config.raceDraw (n : Nat) : Nat → Fin (n + 1)

end Sys2Proof
end

