-- ==== Sys2Proof/Machine/Instance.lean ====
section
/-! DEFINITION. Storage arrays, and instances of the configuration: the table of `CRC_FN(0, [n])` for a given CRC_FN (rule R7), and the
test instance of 95_test_vectors.md section 1.1, which State.reset is built with (log entry 3). -/

namespace Sys2Proof

/-- Entry `i` of a storage array. -/
def Bank.get {α : Type} {n : Nat} (b : Bank α n) (i : Fin n) : α := b.entries[i.val]'(by rw [b.size]; exact i.isLt)

end Sys2Proof

namespace Sys2Proof.Machine

/-- The storage array whose entry `i` is `f i`. -/
def tabulate {α : Type} (n : Nat) (f : Fin n → α) : Bank α n := ⟨(List.finRange n).map f, by simp⟩

/-- The configuration of an instance whose CRC_FN is `crcFn` (rules R7, R101). -/
def configOf (endian : Endian) (crcFn : Word → List Byte → Word) (addrW : Nat) : Config :=
  { endian := endian, crcByte := tabulate 256 fun n => crcFn 0 [BitVec.ofFin n], addrW := addrW }

/-- One bit of the test instance of CRC_FN (95_test_vectors.md section 1.1). -/
def testCrcBit (c : Word) : Word :=
  if c.getLsbD 0 then (c >>> 1) ^^^ 0x95AC9329AC4BC9B5#64 else c >>> 1

/-- One byte of the test instance of CRC_FN: eight bits after the XOR (95_test_vectors.md section 1.1). -/
def testCrcByte (c : Word) (b : Byte) : Word := Nat.repeat testCrcBit 8 (c ^^^ b.setWidth 64)

/-- The test instance of CRC_FN (95_test_vectors.md section 1.1), from general knowledge, not in source. -/
def testCrcFn (c : Word) (bs : List Byte) : Word := bs.foldl testCrcByte c

/-- The instance of the test vectors: ENDIAN = LE, the test CRC_FN, ADDR_W = 64. DESIGN CHOICE, log entry 3. -/
def testConfig : Config := configOf .le testCrcFn 64

end Sys2Proof.Machine
end

