-- ==== Sys2Proof/Syntax.lean ====
section
/-! DEFINITION. The syntax: the four commands (one constructor per row of the opcode table), the fields of a
command word, the host transactions of rule R78, and the assembly statements of rules R167 to R169. -/

namespace Sys2Proof

/-- The commands (rule R71). A command has no operand of its own: operands come from registers (rule R74). -/
inductive Instr where
  | nop
  | build
  | compute
  | rdtab
deriving DecidableEq, Repr

/-- The fields of a command word (rule R70): OP = [3:0], RSVD = [63:4]. -/
structure CmdWord where
  op : BitVec 4
  rsvd : BitVec 60
deriving DecidableEq, Repr

/-- The nine registers of the window (rule R20). -/
inductive RegName where
  | cmd
  | status
  | crcIn
  | addr
  | len
  | crcOut
  | tidx
  | tdata
  | errAddr
deriving DecidableEq, Repr

/-- What the host does next. `write` and `read` are the transactions `W off v` and `R off` of rule R78, each with
its access width in bits, so that the accesses rule R35 excludes can be written down and refused. `poll` is the
loop of rule R168. `store` is a host write of one byte of buffer memory (rules R66, R213 step 3). -/
inductive HostOp where
  | write (off width : Nat) (v : Word)
  | read (off width : Nat)
  | poll
  | store (a : Nat) (b : Byte)
deriving DecidableEq, Repr

/-- An assembly statement: the base statements of rule R167, `poll` (rule R168) and the pseudo-instructions of
rule R169. -/
inductive AsmStmt where
  | wr (r : RegName) (imm : Word)
  | rd (r : RegName)
  | poll
  | cmd (i : Instr)
  | init
  | crc64 (i a n : Word)
  | rdtab (k n : Word)
  | clrerr
deriving DecidableEq, Repr

end Sys2Proof
end

