-- ==== Sys2Proof/Machine/State.lean ====
section
/-! DEFINITION. The state of CSA64 and its surroundings as plain data: the parameters, the host registers and STATUS
fields, TABLE, the engine's working state (10_state.md), buffer memory and its bus verdicts (20_memory.md), and the
inputs that wait: the host's program and the interleaving. Also the reasons a step stops, and the state after reset. -/

namespace Sys2Proof.Machine

/-- The engine's operation state `op` (rule R38). -/
inductive Op where
  | idle
  | building
  | computing
deriving DecidableEq, Repr

/-- The error codes by name (rule R43). -/
inductive ErrCode where
  | none
  | illegal
  | busy
  | noTable
  | range
  | busFault
deriving DecidableEq, Repr

/-- The two widths of a buffer read: 1 byte and 8 bytes (rules R14, R61). -/
inductive ReadSize where
  | byte
  | word
deriving DecidableEq, Repr

/-- A read request the engine sent to MEM (rule R14). -/
structure ReadReq where
  addr : Nat
  size : ReadSize
deriving DecidableEq, Repr

/-- A range of addresses for which MEM answers fault (rules R9, R64): the 1-byte requests that touch it when
`onByte`, the 8-byte requests that touch it when `onWord`. Log entry 8. -/
structure FaultRegion where
  lo : Nat
  size : Nat
  onByte : Bool
  onWord : Bool
deriving DecidableEq, Repr

/-- Who performs the next atomic event (rule R16): the host, the engine, or the platform, which may assert reset
(rule R210) or change which addresses of MEM answer fault (rule R64). -/
inductive Turn where
  | host
  | engine
  | reset
  | bus (regions : List FaultRegion)
deriving DecidableEq, Repr

/-- TABLE: 8 rows of 256 entries (rule R36). -/
abbrev Table := Bank (Bank Word 256) 8

/-- Buffer memory: strictly rising addresses, no entry equal to what an unlisted address reads as. -/
abbrev Memory := List Host.Cell

/-- The machine's state. Each field names the rule that gives it; INVENTORY.md lists widths and reset values. -/
structure State where
  /-- ENDIAN, CRC_FN and ADDR_W (rules R6, R7, R8). -/
  cfg : Config
  /-- op (rule R38); STATUS.BUSY reads it (rule R23). -/
  op : Op
  /-- STATUS.TVALID (rule R24). -/
  tvalid : Bool
  /-- STATUS.ERR (rule R26). -/
  err : BitVec 4
  /-- CRC_IN (rule R28). -/
  crcIn : Word
  /-- ADDR (rule R29). -/
  addr : Word
  /-- LEN (rule R30). -/
  len : Word
  /-- CRC_OUT (rule R31). -/
  crcOut : Word
  /-- TIDX (rule R32). -/
  tidx : Word
  /-- TDATA (rule R33). -/
  tdata : Word
  /-- ERR_ADDR (rule R34). -/
  errAddr : Word
  /-- TABLE (rule R36). -/
  table : Table
  /-- acc (rule R39). -/
  acc : Word
  /-- cur (rule R40), an exact integer. -/
  cur : Nat
  /-- rem (rule R41), an exact integer. -/
  rem : Nat
  /-- MEM's contents (rules R9, R51). -/
  mem : Memory
  /-- Where MEM answers fault (rules R9, R64). -/
  busFaults : List FaultRegion
  /-- For each host store since the running COMPUTE was accepted, its address and the value it replaced, newest
  first (rule R66). -/
  raced : List Host.Cell
  /-- The model's own counter of free values drawn. -/
  draws : Nat
  /-- The read requests the block has sent to MEM, newest first (rule R62). -/
  reads : List ReadReq
  /-- The host's program: what it does next, in program order (rule R78). -/
  host : List HostOp
  /-- The interleaving: whose turn it is, first to last (rules R16, R188). -/
  sched : List Turn
  /-- The offset and value of each register read, newest first (rules R78, R167). -/
  trace : List (Nat × Word)
deriving DecidableEq, Repr

/-- Why the machine stops. -/
inductive Fault where
  /-- Raised by BSTEP and WSTEP for a request outside `[0, 2^ADDR_W)`, which MEM does not have (rules R50, R51).
  Safe: rule R128 rules it out, and no state that meets `Inv` raises it. -/
  | readOutsideMem (a : Nat)
  /-- Raised by a host store to an address MEM does not have (rules R50, R51). Safe. -/
  | storeOutsideMem (a : Nat)
deriving DecidableEq, Repr

/-- What the model gives no meaning. -/
inductive Refusal where
  /-- Raised by a command without a meaning. Safe; no command is left without one. -/
  | notModelled (mnemonic : String)
  /-- Raised by a register access that is not 64 bits wide (rule R35). Safe. -/
  | accessWidth (width : Nat)
  /-- Raised by a register access at an offset that is no multiple of 8 (rule R35). Safe. -/
  | accessMisaligned (off : Nat)
  /-- Raised by a register access outside the 0x80-byte window (rule R35). Safe. -/
  | accessOutsideWindow (off : Nat)
deriving DecidableEq, Repr

/-- What one event comes to. -/
abbrev Out := Host.Outcome State Fault Refusal

/-- The state after reset of an instance with the parameters `cfg` (rule R44). TABLE, acc, cur and rem, which rule
R44 leaves unspecified, are zero (DESIGN CHOICE, log entry 4); MEM lists nothing; no program waits. -/
def State.resetOf (cfg : Config) : State :=
  { cfg := cfg, op := .idle, tvalid := false, err := 0, crcIn := 0, addr := 0, len := 0, crcOut := 0, tidx := 0,
    tdata := 0, errAddr := 0, table := tabulate 8 fun _ => tabulate 256 fun _ => 0, acc := 0, cur := 0, rem := 0,
    mem := [], busFaults := [], raced := [], draws := 0, reads := [], host := [], sched := [], trace := [] }

/-- The machine right after reset, for the instance of the test vectors (log entry 3). -/
def State.reset : State := State.resetOf testConfig

/-- Update of err. -/
def State.setErr (s : State) (e : BitVec 4) : State := { s with err := e }

/-- Update of op. -/
def State.setOp (s : State) (o : Op) : State := { s with op := o }

/-- Update of TVALID. -/
def State.setTvalid (s : State) (b : Bool) : State := { s with tvalid := b }

/-- Update of CRC_IN. -/
def State.setCrcIn (s : State) (v : Word) : State := { s with crcIn := v }

/-- Update of ADDR. -/
def State.setAddr (s : State) (v : Word) : State := { s with addr := v }

/-- Update of LEN. -/
def State.setLen (s : State) (v : Word) : State := { s with len := v }

/-- Update of CRC_OUT. -/
def State.setCrcOut (s : State) (v : Word) : State := { s with crcOut := v }

/-- Update of TIDX. -/
def State.setTidx (s : State) (v : Word) : State := { s with tidx := v }

/-- Update of TDATA. -/
def State.setTdata (s : State) (v : Word) : State := { s with tdata := v }

/-- Update of ERR_ADDR. -/
def State.setErrAddr (s : State) (v : Word) : State := { s with errAddr := v }

/-- Update of TABLE. -/
def State.setTable (s : State) (t : Table) : State := { s with table := t }

/-- Update of acc, cur and rem. -/
def State.setWork (s : State) (x : Word) (c : Nat) (r : Nat) : State := { s with acc := x, cur := c, rem := r }

/-- Update of the contents of MEM. -/
def State.setMem (s : State) (m : Memory) : State := { s with mem := m }

/-- Update of the fault answers of MEM. -/
def State.setBus (s : State) (rs : List FaultRegion) : State := { s with busFaults := rs }

/-- Update of the record of raced stores. -/
def State.setRaced (s : State) (cs : List Host.Cell) : State := { s with raced := cs }

/-- Update of the counter of free values. -/
def State.setDraws (s : State) (n : Nat) : State := { s with draws := n }

/-- Update of the record of read requests. -/
def State.setReads (s : State) (rs : List ReadReq) : State := { s with reads := rs }

/-- Update of the host's program. -/
def State.setHost (s : State) (p : List HostOp) : State := { s with host := p }

/-- Update of the interleaving. -/
def State.setSched (s : State) (ts : List Turn) : State := { s with sched := ts }

/-- Update of the host's trace. -/
def State.setTrace (s : State) (tr : List (Nat × Word)) : State := { s with trace := tr }

end Sys2Proof.Machine
end

