-- ==== Sys2Proof/Machine/Operands.lean ====
section
/-! DEFINITION. The operand forms: bytes of a word, byte reversal, the two word assemblies, the eight lanes, the table
index fields, and the orientation a byte order gives a value (rules R10 to R13, R32, R74, R103). -/

namespace Sys2Proof.Machine

/-- `zext_64` of a byte (rule R10). -/
def zext64 (b : Byte) : Word := b.setWidth 64

/-- `byte(x, i) = x[8i+7:8i]` (rule R12). -/
def byteOf (x : Word) (i : Nat) : Byte := x.extractLsb' (8 * i) 8

/-- `x & 0xFF` as a column index 0..255 (rules R17, R102). -/
def maskFF (x : Word) : Byte := (x &&& 0xFF#64).setWidth 8

/-- The XOR of the eight lanes, lane 0 to lane 7 (rule R124). -/
def xorLanes (f : Fin 8 → Word) : Word := f 0 ^^^ f 1 ^^^ f 2 ^^^ f 3 ^^^ f 4 ^^^ f 5 ^^^ f 6 ^^^ f 7

/-- `rev8`: byte i of x at byte 7 - i (rule R12). -/
def rev8 (x : Word) : Word := xorLanes fun i => zext64 (byteOf x i) <<< (8 * i.rev.val)

/-- `le64`: the byte at the lowest address is the least significant (rule R13). -/
def le64 (bs : List Byte) : Word := xorLanes fun i => zext64 (bs.getD i 0) <<< (8 * i.val)

/-- `be64`: the byte at the lowest address is the most significant (rule R13). -/
def be64 (bs : List Byte) : Word := xorLanes fun i => zext64 (bs.getD i 0) <<< (8 * i.rev.val)

/-- The orientation of a value in the datapath: as is for LE, byte-reversed for BE. It is `orient` of rule R103, and
the reversal on entry and on exit of rules R120 and R126. -/
def orient (e : Endian) (x : Word) : Word :=
  match e with
  | .le => x
  | .be => rev8 x

/-- What TIDX keeps of a host write: `zext_64(v[10:0])` (rule R32). -/
def warlTidx (v : Word) : Word := (v.extractLsb' 0 11).setWidth 64

/-- ROW = TIDX[10:8] (rules R32, R74). -/
def tidxRow (v : Word) : Fin 8 := (v.extractLsb' 8 3).toFin

/-- COL = TIDX[7:0] (rules R32, R74). -/
def tidxCol (v : Word) : Byte := v.extractLsb' 0 8

/-- `TABLE[k][n]` (rules R14, R36). A lookup cannot fail. -/
def lookup (t : Table) (k : Fin 8) (n : Byte) : Word := (t.get k).get n.toFin

end Sys2Proof.Machine
end

