-- ==== Sys2Proof/Machine/Flags.lean ====
section
/-! DEFINITION. STATUS: the error codes, the BUSY, TVALID, BIGEND and ERR fields, and the word a read assembles
(rules R22 to R27, R43). -/

namespace Sys2Proof.Machine

/-- The value of an error code (rule R43). -/
def ErrCode.code : ErrCode → BitVec 4
  | .none => 0
  | .illegal => 1
  | .busy => 2
  | .noTable => 3
  | .range => 4
  | .busFault => 5

/-- STATUS.BUSY: 1 iff op is not IDLE (rules R22, R23). -/
def busyFlag (s : State) : Bool := decide (s.op ≠ .idle)

/-- STATUS.BIGEND: 1 iff ENDIAN = BE (rules R22, R25). -/
def bigEndFlag (s : State) : Bool := decide (s.cfg.endian = .be)

/-- A flag as a 64-bit value. -/
def flagWord (b : Bool) : Word := (BitVec.ofBool b).setWidth 64

/-- `STATUS = zext_64(ERR << 4) ^ (BIGEND << 2) ^ (TVALID << 1) ^ BUSY` (rule R22). -/
def statusWord (s : State) : Word :=
  (s.err.setWidth 64 <<< 4) ^^^ (flagWord (bigEndFlag s) <<< 2) ^^^ (flagWord s.tvalid <<< 1) ^^^ flagWord (busyFlag s)

end Sys2Proof.Machine
end

