-- ==== Sys2Proof/Machine/Ops.lean ====
section
/-! DEFINITION. The shared operations: buffer memory and its read requests (20_memory.md), acceptance, rejection and
abort (the block's whole error entry: rules R15, R127, R165, R190), and the reset event (rules R210, R211). -/

namespace Sys2Proof.Machine

/-- What an address with no entry in the list reads as. DESIGN CHOICE, log entry 9. -/
def blankByte : Byte := 0

/-- The byte MEM holds at an address. -/
def Memory.read : Memory → Nat → Byte
  | [], _ => blankByte
  | (k, v) :: m, a => if k = a then v else Memory.read m a

/-- The contents of MEM with the byte `b` at address `a`, in the canonical form. -/
def Memory.write : Memory → Nat → Byte → Memory
  | [], a, b => if b = blankByte then [] else [(a, b)]
  | (k, v) :: m, a, b =>
    if a < k then (if b = blankByte then (k, v) :: m else (a, b) :: (k, v) :: m)
    else if a = k then (if b = blankByte then m else (a, b) :: m)
    else (k, v) :: Memory.write m a b

/-- The canonical form: strictly rising addresses, and no entry that reads as an unlisted address does. -/
abbrev Memory.wf (m : Memory) : Prop :=
  m.Pairwise (fun c d => c.1 < d.1) ∧ ∀ c ∈ m, c.2 ≠ blankByte

/-- The size of MEM in bytes, `2^ADDR_W` (rules R8, R50). -/
def memSize (s : State) : Nat := 2 ^ s.cfg.addrW

/-- The number of bytes of a read request (rules R14, R61). -/
def ReadSize.bytes : ReadSize → Nat
  | .byte => 1
  | .word => 8

/-- Whether a region makes MEM answer fault to the request for `sz` at `a`: it is for requests of that width and
shares a byte with the request. -/
def FaultRegion.hits (r : FaultRegion) (a : Nat) (sz : ReadSize) : Bool :=
  (match sz with
    | .byte => r.onByte
    | .word => r.onWord) && decide (a < r.lo + r.size) && decide (r.lo < a + sz.bytes)

/-- MEM's verdict on a request: true when it answers fault (rules R51, R64). -/
def busFaulted (rs : List FaultRegion) (a : Nat) (sz : ReadSize) : Bool := rs.any fun r => r.hits a sz

/-- The values a byte had before each host store to it since the running COMPUTE was accepted (rule R66). -/
def racedValues (cs : List Host.Cell) (a : Nat) : List Byte := (cs.filter fun c => c.1 = a).map Prod.snd

/-- The byte the engine reads at `a`. With no host store to it since acceptance it is what MEM holds. After one, it is
any of the old value and the values written, by the free draw numbered `d` (rules R61, R66). -/
def raceRead (s : State) (a d : Nat) : Byte :=
  match racedValues s.raced a with
  | [] => s.mem.read a
  | old => (s.mem.read a :: old).get (Config.raceDraw old.length d)

/-- MEM's answer to a read request (rule R14). -/
inductive MemAnswer where
  | ok (bs : List Byte)
  | fault
deriving DecidableEq, Repr

/-- `MemRead(addr, n)`: one verdict for the request, and the bytes in address order, each read on its own
(rules R14, R51, R61). -/
def memRead (s : State) (a : Nat) (sz : ReadSize) : MemAnswer :=
  if busFaulted s.busFaults a sz then .fault
  else .ok ((List.range sz.bytes).map fun i => raceRead s (a + i) (s.draws + i))

/-- The record of a read request, and of the draws its bytes used. -/
def noteRead (s : State) (a : Nat) (sz : ReadSize) : State :=
  (s.setReads (⟨a, sz⟩ :: s.reads)).setDraws (s.draws + sz.bytes)

/-- acc, cur and rem become unspecified, within their ranges (rules R39, R40, R41). Free values, log entry 5. -/
def freeWork (s : State) : State :=
  (s.setWork (Config.freeAcc s.draws) (Config.freeCur (memSize s) s.draws).val
    (Config.freeRem s.draws).toNat).setDraws (s.draws + 1)

/-- Every accepted command first writes ERR <- 0 (rule R165). -/
def accept (s : State) : State := s.setErr ErrCode.none.code

/-- `reject(code)`: ERR <- code and nothing else (rules R15, R162). -/
def reject (c : ErrCode) (s : State) : State := s.setErr c.code

/-- The busy check, the first of rule R162: a command written while op is not IDLE is rejected BUSY (rule R183). -/
def whenIdle (s : State) (k : State → Out) : Out :=
  match s.op with
  | .idle => k s
  | .building => .next (reject .busy s)
  | .computing => .next (reject .busy s)

/-- The table check of COMPUTE and RDTAB: rejected NOTABLE while TVALID = 0 (rules R162, R184). -/
def whenTable (s : State) (k : State → Out) : Out :=
  if s.tvalid then k s else .next (reject .noTable s)

/-- ABORT(a): ERR <- 5, ERR_ADDR <- a, op <- IDLE. CRC_OUT is unchanged, and acc, cur and rem become unspecified
(rules R127, R186, R190). -/
def abort (a : Nat) (s : State) : State :=
  freeWork (((s.setErr ErrCode.busFault.code).setErrAddr (BitVec.ofNat 64 a)).setOp .idle)

/-- TABLE becomes unspecified (rules R36, R210). Free values, log entry 6. -/
def freeTable (s : State) : State :=
  (s.setTable (tabulate 8 fun k => tabulate 256 fun n => Config.freeEntry s.draws k n)).setDraws (s.draws + 1)

/-- The reset event: every register at its value of rule R44, TABLE, acc, cur and rem unspecified, the parameters as
they were, and no MEM access (rules R210, R211). MEM, the host and the interleaving are outside the block. -/
def resetEvent (s : State) : State :=
  freeWork (freeTable
    ((((((((((s.setOp .idle).setTvalid false).setErr ErrCode.none.code).setCrcIn 0).setAddr 0).setLen 0).setTidx 0).setCrcOut
      0).setTdata 0).setErrAddr 0))

/-- A host store of one byte to MEM. While a COMPUTE runs it is a race, and the value it replaces is kept as one the
engine may still read (rules R66, R217). MEM has no address at or above `2^ADDR_W` (rule R50). -/
def hostStore (a : Nat) (b : Byte) (s : State) : Out :=
  if a < memSize s then
    .next ((match s.op with
      | .computing => s.setRaced ((a, s.mem.read a) :: s.raced)
      | .idle => s
      | .building => s).setMem (s.mem.write a b))
  else .fault (.storeOutsideMem a)

end Sys2Proof.Machine
end

