-- ==== Sys2Proof/Machine/Table.lean ====
section
/-! DEFINITION. The table as a function of the parameters (rules R101 to R103), and the logical byte step S with its
fold S* (rule R17). -/

namespace Sys2Proof.Machine

/-- Row 0 of the logical table: `L[0][n] = CRC_FN(0, [n])` (rule R101). -/
def logicalRow0 (c : Config) (n : Byte) : Word := c.crcByte.get n.toFin

/-- The logical table: row k + 1 extends row k by one zero byte (rule R102). -/
def logical (c : Config) : Nat → Byte → Word
  | 0, n => logicalRow0 c n
  | k + 1, n => logicalRow0 c (maskFF (logical c k n)) ^^^ (logical c k n >>> 8)

/-- The stored table: `TABLE[k][n] = orient(L[k][n])` (rule R103). -/
def storedTable (c : Config) : Table :=
  tabulate 8 fun k => tabulate 256 fun n => orient c.endian (logical c k.val (BitVec.ofFin n))

/-- `S(c, b)`, the logical byte step (rule R17). -/
def logicalStep (cfg : Config) (c : Word) (b : Byte) : Word :=
  logicalRow0 cfg (maskFF (c ^^^ zext64 b)) ^^^ (c >>> 8)

/-- `S*(c, bs)`: S folded over the bytes, first to last (rule R17). -/
def logicalFold (cfg : Config) : Word → List Byte → Word
  | c, [] => c
  | c, b :: bs => logicalFold cfg (logicalStep cfg c b) bs

end Sys2Proof.Machine
end

