-- ==== Sys2Proof/Machine/Accumulator.lean ====
section
/-! DEFINITION. The slice accumulator: the COMPUTE command (rule R120) and the engine steps BSTEP, WSTEP and FINISH
(rules R122 to R126), with ABORT in place of a step whose read faults (rule R127). -/

namespace Sys2Proof.Machine

/-- Rule R185: `LEN = 0` or `ADDR + LEN <= 2^ADDR_W`, as an exact sum. -/
abbrev rangeOk (s : State) : Prop := s.len.toNat = 0 ∨ s.addr.toNat + s.len.toNat ≤ memSize s

/-- Acceptance of COMPUTE: ERR <- 0, acc <- CRC_IN in the datapath's orientation, cur <- ADDR, rem <- LEN,
op <- COMPUTING (rule R120). Host stores made before it are no race (rule R66). -/
def acceptCompute (s : State) : State :=
  (((accept s).setWork (orient s.cfg.endian s.crcIn) s.addr.toNat s.len.toNat).setRaced []).setOp .computing

/-- COMPUTE (rules R120, R162): BUSY, then NOTABLE, then RANGE, else accepted. -/
def execCompute (s : State) : Out :=
  whenIdle s fun s => whenTable s fun s =>
    if rangeOk s then .next (acceptCompute s) else .next (reject .range s)

/-- The accumulator after one byte (rules R122 for LE, R123 for BE). -/
def byteStep (e : Endian) (t : Table) (acc : Word) (b : Byte) : Word :=
  match e with
  | .le => lookup t 0 (maskFF (acc ^^^ zext64 b)) ^^^ (acc >>> 8)
  | .be => lookup t 0 (maskFF ((acc >>> 56) ^^^ zext64 b)) ^^^ (acc <<< 8)

/-- The accumulator after eight bytes: lane i looks up byte i of x in row 7 - i for LE (rule R124), in row i for BE
(rule R125). -/
def wordStep (e : Endian) (t : Table) (acc : Word) (bs : List Byte) : Word :=
  match e with
  | .le => xorLanes fun i => lookup t i.rev (byteOf (acc ^^^ le64 bs) i)
  | .be => xorLanes fun i => lookup t i (byteOf (acc ^^^ be64 bs) i)

/-- The accumulator after the bytes of one read: BSTEP's after one byte, WSTEP's after eight (rules R122 to R125). -/
def combine (sz : ReadSize) (e : Endian) (t : Table) (acc : Word) (bs : List Byte) : Word :=
  match sz with
  | .byte => byteStep e t acc (bs.getD 0 0)
  | .word => wordStep e t acc bs

/-- The one shape of BSTEP and WSTEP: one read request at cur. ABORT when MEM answers fault (rule R127), else acc takes
the bytes in, cur advances and rem falls by their number (rules R122 to R125, R128). -/
def bufferStep (sz : ReadSize) (s : State) : Out :=
  if s.cur + sz.bytes ≤ memSize s then
    match memRead s s.cur sz with
    | .fault => .next (abort s.cur (noteRead s s.cur sz))
    | .ok bs =>
      .next ((noteRead s s.cur sz).setWork (combine sz s.cfg.endian s.table s.acc bs) (s.cur + sz.bytes)
        (s.rem - sz.bytes))
  else .fault (.readOutsideMem s.cur)

/-- FINISH: CRC_OUT <- acc in logical orientation, op <- IDLE (rule R126). acc, cur and rem have no specified value
outside COMPUTING (rules R39 to R41). -/
def finish (s : State) : State := freeWork ((s.setCrcOut (orient s.cfg.endian s.acc)).setOp .idle)

end Sys2Proof.Machine
end

