-- ==== Sys2Proof/Machine/Builder.lean ====
section
/-! DEFINITION. The table builder: the BUILD command (rule R100) and the engine step BUILD_DONE (rule R104). -/

namespace Sys2Proof.Machine

/-- Acceptance of BUILD: ERR <- 0, TVALID <- 0, op <- BUILDING (rule R100). -/
def acceptBuild (s : State) : State := ((accept s).setTvalid false).setOp .building

/-- BUILD (rule R100). -/
def execBuild (s : State) : Out := whenIdle s fun s => .next (acceptBuild s)

/-- BUILD_DONE: TABLE <- orient(L), TVALID <- 1, op <- IDLE (rule R104). -/
def buildDone (s : State) : State := ((s.setTable (storedTable s.cfg)).setTvalid true).setOp .idle

end Sys2Proof.Machine
end

