-- ==== Sys2Proof/Machine/Engine.lean ====
section
/-! DEFINITION. The engine: which step is enabled (rules R104, R121), and taking it. -/

namespace Sys2Proof.Machine

/-- The engine steps that can be enabled. ABORT is what BSTEP or WSTEP becomes when its read faults (rule R127). -/
inductive EngineStep where
  | buildDone
  | bstep
  | wstep
  | finish
deriving DecidableEq, Repr

/-- The step selection: BUILD_DONE while BUILDING (rule R104), rule R121's choice while COMPUTING, none while IDLE
(rule R212). -/
def enabledStep (s : State) : Option EngineStep :=
  match s.op with
  | .idle => none
  | .building => some .buildDone
  | .computing =>
    if s.rem = 0 then some .finish
    else if s.cur % 8 ≠ 0 ∨ s.rem < 8 then some .bstep
    else some .wstep

/-- The engine's turn: the enabled step as one atomic event, or nothing when none is enabled (rule R16). -/
def engineStep (s : State) : Out :=
  match enabledStep s with
  | none => .next s
  | some .buildDone => .next (buildDone s)
  | some .bstep => bufferStep .byte s
  | some .wstep => bufferStep .word s
  | some .finish => .next (finish s)

end Sys2Proof.Machine
end

