-- ==== Sys2Proof/WellFormed.lean ====
section
/-! DEFINITION. Which syntax is well formed: the legal command-word fields (rules R70 to R72), and the host
transactions the interface has (rules R35, R60, R78). -/

namespace Sys2Proof

/-- Every command is well formed: it has no operand field that could be out of range (rule R70). -/
def Instr.wf : Instr → Bool
  | .nop => true
  | .build => true
  | .compute => true
  | .rdtab => true

/-- Rules R71, R72: OP is one of 0x0 to 0x3 and RSVD is zero. -/
def CmdWord.wf (c : CmdWord) : Bool :=
  decide (c.op.toNat ≤ 3) && decide (c.rsvd = 0)

/-- Rules R35, R60: a 64-bit access, at a multiple of 8, inside the 0x80-byte window. -/
def accessWf (off width : Nat) : Bool :=
  decide (width = 64) && decide (off % 8 = 0) && decide (off < 0x80)

/-- A host transaction the interface has, for a buffer memory of `size` bytes (rules R35, R50, R78). -/
def HostOp.wf (size : Nat) : HostOp → Bool
  | .write off width _ => accessWf off width
  | .read off width => accessWf off width
  | .poll => true
  | .store a _ => decide (a < size)

end Sys2Proof
end

