-- ==== Sys2Proof/Decode.lean ====
section
/-! DEFINITION. Decoding a command word (rules R70 to R73), total on every 64-bit word and rejecting by name, and
the encoder written from the OP table of rule R71. -/

namespace Sys2Proof

/-- Why a word is no command: RSVD is not zero (rule R72), or OP is in 0x4 to 0xF (rule R71). -/
inductive Illegal where
  | reservedBits
  | reservedOp (op : BitVec 4)
deriving DecidableEq, Repr

/-- The decoder's verdict, `Cmd ⊕ Illegal` in rule R73. -/
inductive Decoded where
  | cmd (i : Instr)
  | illegal (why : Illegal)
deriving DecidableEq, Repr

/-- The fields of a command word (rule R70). -/
def fieldsOf (w : Word) : CmdWord := ⟨w.extractLsb' 0 4, w.extractLsb' 4 60⟩

/-- The 64-bit word of the fields (rule R70). -/
def wordOf (c : CmdWord) : Word := c.rsvd ++ c.op

/-- Rule R73. The two names of the rejection are rule R75's two kinds of illegal word. -/
def decode (w : Word) : Decoded :=
  if w = 0x0#64 then .cmd .nop
  else if w = 0x1#64 then .cmd .build
  else if w = 0x2#64 then .cmd .compute
  else if w = 0x3#64 then .cmd .rdtab
  else if (fieldsOf w).rsvd ≠ 0 then .illegal .reservedBits
  else .illegal (.reservedOp (fieldsOf w).op)

/-- The OP value of a command (rule R71). -/
def opOf : Instr → BitVec 4
  | .nop => 0x0#4
  | .build => 0x1#4
  | .compute => 0x2#4
  | .rdtab => 0x3#4

/-- The command word of a command (rules R70 to R72): its OP value under RSVD = 0. -/
def encode (i : Instr) : Word := wordOf ⟨opOf i, 0⟩

/-- The command the decoder reads from an opcode-table word of `nbits` bits. A command is exactly one 64-bit word
(rule R76), exchanged as a number (rule R57), so a longer instruction does not exist and the bits above `nbits`
are zero. -/
def decodeTableWord (nbits w : Nat) : Option Instr :=
  if nbits ≤ 64 then
    match decode (BitVec.ofNat 64 (w % 2 ^ nbits)) with
    | .cmd i => some i
    | .illegal _ => none
  else none

end Sys2Proof
end

