-- ==== Sys2Proof/Machine/HostCommands.lean ====
section
/-! DEFINITION. The two commands that complete within their CMD write: NOP (rule R163) and RDTAB (rule R164). -/

namespace Sys2Proof.Machine

/-- NOP: ERR <- 0 (rule R163). -/
def execNop (s : State) : Out := whenIdle s fun s => .next (accept s)

/-- RDTAB: ERR <- 0, TDATA <- TABLE[TIDX[10:8]][TIDX[7:0]], in stored orientation (rule R164). -/
def execRdtab (s : State) : Out :=
  whenIdle s fun s => whenTable s fun s =>
    .next ((accept s).setTdata (lookup s.table (tidxRow s.tidx) (tidxCol s.tidx)))

end Sys2Proof.Machine
end

