-- ==== Sys2Proof/Machine/Dispatch.lean ====
section
/-! DEFINITION. One arm per command: what writing the command to CMD does (rules R162, R71). -/

namespace Sys2Proof.Machine

def exec (i : Instr) (s : State) : Host.Outcome State Fault Refusal :=
  match i with
  | .nop => Sys2Proof.Machine.execNop s
  | .build => Sys2Proof.Machine.execBuild s
  | .compute => Sys2Proof.Machine.execCompute s
  | .rdtab => Sys2Proof.Machine.execRdtab s

end Sys2Proof.Machine
end

