-- ==== Sys2Proof/Machine/Port.lean ====
section
/-! DEFINITION. The host's side: the register window (rules R20, R35), register reads and writes (rules R160, R161),
command issue (rule R162), the host's program one transaction at a time (rules R78, R168), and the expansion of
assembly statements (rules R167 to R169). -/

namespace Sys2Proof.Machine

/-- The offset of a register (rule R20). -/
def offsetOf : RegName → Nat
  | .cmd => 0x00
  | .status => 0x08
  | .crcIn => 0x10
  | .addr => 0x18
  | .len => 0x20
  | .crcOut => 0x28
  | .tidx => 0x30
  | .tdata => 0x38
  | .errAddr => 0x40

/-- The register at an offset of the window, if there is one (rule R20). -/
def regAt (off : Nat) : Option RegName :=
  if off = 0x00 then some .cmd
  else if off = 0x08 then some .status
  else if off = 0x10 then some .crcIn
  else if off = 0x18 then some .addr
  else if off = 0x20 then some .len
  else if off = 0x28 then some .crcOut
  else if off = 0x30 then some .tidx
  else if off = 0x38 then some .tdata
  else if off = 0x40 then some .errAddr
  else none

/-- Why a register access is no part of the interface, if it is not (rules R35, R60). -/
def accessRefusal (off width : Nat) : Option Refusal :=
  if width ≠ 64 then some (.accessWidth width)
  else if off % 8 ≠ 0 then some (.accessMisaligned off)
  else if 0x80 ≤ off then some (.accessOutsideWindow off)
  else none

/-- A CMD write of a word that is no command: ILLEGAL, after the busy check (rules R75, R162, R182). -/
def issueIllegal (s : State) : Out := whenIdle s fun s => .next (reject .illegal s)

/-- `issue(v)` (rule R162). Each command's meaning makes the busy check first, as `issueIllegal` does. -/
def issue (v : Word) (s : State) : Out :=
  match decode v with
  | .cmd i => exec i s
  | .illegal _ => issueIllegal s

/-- `RegWrite(off, v)` (rule R160). -/
def regWrite (off : Nat) (v : Word) (s : State) : Out :=
  match regAt off with
  | some .cmd => issue v s
  | some .crcIn => .next (s.setCrcIn v)
  | some .addr => .next (s.setAddr v)
  | some .len => .next (s.setLen v)
  | some .tidx => .next (s.setTidx (warlTidx v))
  | some .status => .next s
  | some .crcOut => .next s
  | some .tdata => .next s
  | some .errAddr => .next s
  | none => .next s

/-- The value `RegRead(off)` returns (rule R161). -/
def regRead (off : Nat) (s : State) : Word :=
  match regAt off with
  | some .cmd => 0
  | some .status => statusWord s
  | some .crcIn => s.crcIn
  | some .addr => s.addr
  | some .len => s.len
  | some .crcOut => s.crcOut
  | some .tidx => s.tidx
  | some .tdata => s.tdata
  | some .errAddr => s.errAddr
  | none => 0

/-- A register read as an event: the value goes to the host's trace and nothing else changes (rules R63, R161,
R167). -/
def noteRegRead (off : Nat) (s : State) : State := s.setTrace ((off, regRead off s) :: s.trace)

/-- The host's next transaction, with the rest of its program. A `poll` reads STATUS and stays until the read has
BUSY clear (rule R168). A host with no program left does nothing. -/
def hostStep (s : State) : Out :=
  match s.host with
  | [] => .next s
  | .write off width v :: rest =>
    match accessRefusal off width with
    | some r => .refused r
    | none => regWrite off v (s.setHost rest)
  | .read off width :: rest =>
    match accessRefusal off width with
    | some r => .refused r
    | none => .next (noteRegRead off (s.setHost rest))
  | .poll :: rest =>
    if (statusWord s).getLsbD 0 then .next (noteRegRead (offsetOf .status) s)
    else .next (noteRegRead (offsetOf .status) (s.setHost rest))
  | .store a b :: rest => hostStore a b (s.setHost rest)

/-- `W off v` (rule R78). -/
def txnW (off : Nat) (v : Word) : HostOp := .write off 64 v

/-- `R off` (rule R78). -/
def txnR (off : Nat) : HostOp := .read off 64

/-- `wr NAME, imm` (rule R167). -/
def wrReg (r : RegName) (imm : Word) : HostOp := txnW (offsetOf r) imm

/-- `rd NAME` (rule R167). -/
def rdReg (r : RegName) : HostOp := txnR (offsetOf r)

/-- The transactions of an assembly statement (rules R167 to R169). -/
def expand : AsmStmt → List HostOp
  | .wr r imm => [wrReg r imm]
  | .rd r => [rdReg r]
  | .poll => [.poll]
  | .cmd i => [wrReg .cmd (encode i)]
  | .init => [wrReg .cmd (encode .build), .poll]
  | .crc64 i a n =>
    [wrReg .crcIn i, wrReg .addr a, wrReg .len n, wrReg .cmd (encode .compute), .poll, rdReg .status, rdReg .crcOut]
  | .rdtab k n => [wrReg .tidx ((k <<< 8) + n), wrReg .cmd (encode .rdtab), rdReg .tdata]
  | .clrerr => [wrReg .cmd (encode .nop)]

/-- A host program in assembly, as its transactions in program order (rules R78, R167). -/
def assemble (p : List AsmStmt) : List HostOp := p.flatMap expand

end Sys2Proof.Machine
end

