-- ==== Sys2Proof/Machine/Turns.lean ====
section
/-! DEFINITION. The interleaving: whose event is next, and performing it (rules R16, R188). -/

namespace Sys2Proof.Machine

/-- The event of one turn. -/
def runTurn (t : Turn) (s : State) : Out :=
  match t with
  | .host => hostStep s
  | .engine => engineStep s
  | .reset => .next (resetEvent s)
  | .bus regions => .next (s.setBus regions)

/-- The turn taken once the interleaving in the state is used up: the engine's while an operation runs, else the
host's. It is one fair continuation of those rule R16 admits (DESIGN CHOICE, log entry 10). -/
def defaultTurn (s : State) : Turn :=
  match s.op with
  | .idle => .host
  | .building => .engine
  | .computing => .engine

/-- The next atomic event (rule R16). -/
def nextEvent (s : State) : Out :=
  match s.sched with
  | [] => runTurn (defaultTurn s) s
  | t :: ts => runTurn t (s.setSched ts)

/-- The host's CMD write of the low `nbits` bits of `w`, as the next event. -/
def placeCommand (s : State) (nbits w : Nat) : State :=
  (s.setHost (txnW (offsetOf .cmd) (BitVec.ofNat 64 (w % 2 ^ nbits)) :: s.host)).setSched (.host :: s.sched)

end Sys2Proof.Machine
end

