-- ==== Sys2Proof/Laws/PerInstr.lean ====
section
/-! SUPPORT. Statements about every command, one lemma per constructor. -/

namespace Sys2Proof.Laws.Encoding

/-- The command is well formed, its word has legal fields (rules R70 to R72), and decoding the word gives it back. -/
def Statement (i : Instr) : Prop :=
  i.wf = true ∧ (fieldsOf (encode i)).wf = true ∧ decode (encode i) = .cmd i

theorem nop : Statement .nop := ⟨rfl, by decide, by decide⟩

theorem build : Statement .build := ⟨rfl, by decide, by decide⟩

theorem compute : Statement .compute := ⟨rfl, by decide, by decide⟩

theorem rdtab : Statement .rdtab := ⟨rfl, by decide, by decide⟩

end Sys2Proof.Laws.Encoding
end

