-- ==== Sys2Proof/Safety.lean ====
section
/-! DEFINITION. The words claims are stated in: runs, the invariant of a good state, the phases and reads of a COMPUTE
(rule R129), the preconditions on CRC_FN (rule R18), quiet buses, and two instances that differ only in ENDIAN
(rule R133). -/

namespace Sys2Proof.Machine

/-- `k` steps, stopping at the first fault or refusal. -/
def run : Nat → State → Out
  | 0, s => .next s
  | k + 1, s =>
    match step s with
    | .next t => run k t
    | .fault r => .fault r
    | .refused r => .refused r

/-- `k` steps in which every turn is the engine's. -/
def engineRun (k : Nat) (s : State) : Out := run k { s with sched := List.replicate k .engine }

/-- Whose turn the next step is. -/
def turnOf (s : State) : Turn :=
  match s.sched with
  | [] => defaultTurn s
  | t :: _ => t

/-- What holds of every state a run reaches: legal parameters (rule R8), MEM in canonical form and inside its address
space (rule R50), only defined error codes (rule R43), TIDX within 11 bits (rule R32), a valid table is the built one
(rule R37), no valid table while building (rule R100), and a running COMPUTE has a valid table and a cursor that stays
inside MEM (rules R41, R128). -/
structure Inv (s : State) : Prop where
  cfgLegal : s.cfg.wf
  memCanonical : Memory.wf s.mem
  memInside : ∀ c ∈ s.mem, c.1 < memSize s
  errDefined : s.err.toNat ≤ 5
  tidxLegal : s.tidx.toNat < 2 ^ 11
  tableBuilt : s.tvalid = true → s.table = storedTable s.cfg
  buildingInvalid : s.op = .building → s.tvalid = false
  computingValid : s.op = .computing → s.tvalid = true
  cursorInside : s.op = .computing → s.rem = 0 ∨ s.cur + s.rem ≤ memSize s
  remBounded : s.op = .computing → s.rem < 2 ^ 64

/-- The bytes of MEM at `a .. a + n - 1`, in address order. -/
def bytesAt (m : Memory) (a n : Nat) : List Byte := (List.range n).map fun i => m.read (a + i)

/-- MEM answers every request inside `[a, a + n)` with data. -/
def BusQuiet (s : State) (a n : Nat) : Prop :=
  ∀ x sz, a ≤ x → x + sz.bytes ≤ a + n → busFaulted s.busFaults x sz = false

/-- h of rule R129: the number of head bytes. -/
def headLen (a n : Nat) : Nat := min n ((8 - a % 8) % 8)

/-- q of rule R129: the number of body words. -/
def bodyLen (a n : Nat) : Nat := (n - headLen a n) / 8

/-- t of rule R129: the number of tail bytes. -/
def tailLen (a n : Nat) : Nat := (n - headLen a n) % 8

/-- The number of engine steps of a COMPUTE that does not abort (rule R130). -/
def stepCount (a n : Nat) : Nat := headLen a n + bodyLen a n + tailLen a n + 1

/-- The read requests of a COMPUTE that does not abort, first to last: the head bytes, the body words and the tail
bytes of rule R129. -/
def readPlan (a n : Nat) : List ReadReq :=
  ((List.range (headLen a n)).map fun i => ⟨a + i, .byte⟩)
    ++ ((List.range (bodyLen a n)).map fun i => ⟨a + headLen a n + 8 * i, .word⟩)
    ++ ((List.range (tailLen a n)).map fun i => ⟨a + headLen a n + 8 * bodyLen a n + i, .byte⟩)

/-- CRC_FN is `crcFn`, as far as the block can tell: row 0 holds `CRC_FN(0, [n])` (rules R7, R101). -/
def Represents (c : Config) (crcFn : Word → List Byte → Word) : Prop := ∀ n : Byte, logicalRow0 c n = crcFn 0 [n]

/-- P_lin: row 0 is XOR-linear (rule R18). -/
def PLin (c : Config) : Prop := ∀ a b : Byte, logicalRow0 c (a ^^^ b) = logicalRow0 c a ^^^ logicalRow0 c b

/-- P_ref: the reference function is the byte-at-a-time update that row 0 induces (rule R18). -/
def PRef (c : Config) (crcFn : Word → List Byte → Word) : Prop := ∀ w bs, crcFn w bs = logicalFold c w bs

/-- A run from a state in which a COMPUTE runs to the state its FINISH gives, under any interleaving without a reset and
without a host store to `[lo, hi)`: the premises rule R214 asks of a claim about a COMPUTE. Host accesses, CMD writes
among them, changes of MEM's fault answers and host stores elsewhere may fall anywhere in it. -/
inductive FinishingRun (lo hi : Nat) : State → State → Prop where
  | finish {v u : State} : v.op = .computing → turnOf v = .engine → enabledStep v = some .finish → step v = .next u →
      FinishingRun lo hi v u
  | more {v w u : State} : v.op = .computing → turnOf v ≠ .reset →
      (∀ a b rest, turnOf v = .host → v.host = .store a b :: rest → a < lo ∨ hi ≤ a) → step v = .next w →
      FinishingRun lo hi w u → FinishingRun lo hi v u

/-- The COMPUTE written to CMD in the idle state `s` is accepted, and its FINISH gives `u`. -/
def ComputesTo (s u : State) : Prop :=
  s.op = .idle ∧ ∃ t, exec .compute s = .next t ∧ t.op = .computing ∧
    FinishingRun s.addr.toNat (s.addr.toNat + s.len.toNat) t u

/-- What the BE instance's host reads where the LE instance's reads `v` at `off`: STATUS shows BIGEND and TDATA the
reversed entry, all else is the same (rule R56). -/
def twinValue (off : Nat) (v : Word) : Word :=
  if off = offsetOf .status then v ^^^ 0x4#64 else if off = offsetOf .tdata then rev8 v else v

/-- `s` and `t` are two instances that differ only in ENDIAN, at the same point of the same run (rule R133). -/
structure Twin (s t : State) : Prop where
  isLe : s.cfg.endian = .le
  cfg : t.cfg = { s.cfg with endian := .be }
  op : t.op = s.op
  tvalid : t.tvalid = s.tvalid
  err : t.err = s.err
  crcIn : t.crcIn = s.crcIn
  addr : t.addr = s.addr
  len : t.len = s.len
  crcOut : t.crcOut = s.crcOut
  tidx : t.tidx = s.tidx
  tdata : t.tdata = rev8 s.tdata
  errAddr : t.errAddr = s.errAddr
  table : s.tvalid = true → ∀ k n, lookup t.table k n = rev8 (lookup s.table k n)
  acc : s.op = .computing → t.acc = rev8 s.acc
  cur : t.cur = s.cur
  rem : t.rem = s.rem
  mem : t.mem = s.mem
  busFaults : t.busFaults = s.busFaults
  raced : t.raced = s.raced
  draws : t.draws = s.draws
  reads : t.reads = s.reads
  host : t.host = s.host
  sched : t.sched = s.sched
  trace : t.trace = s.trace.map fun p => (p.1, twinValue p.1 p.2)

end Sys2Proof.Machine
end

