-- ==== Sys2Proof/Certificates/Slice0/Obligations.lean ====
section
/-! DEFINITION. The statements about CSA64 for the provers, from the numbered rules of spec/. Every statement is about
every state, so it holds for both ENDIAN values, every CRC_FN and every ADDR_W. -/

open Sys2Proof Sys2Proof.Machine

/-! Reset (10_state.md, 70_reset_and_hazards.md) -/

/-- Rule R44: the value of each register the rule gives one, for every instance. That State.reset is the reset state of its
own parameters is the model's choice (log entry 3). -/
def Obligations.ResetGivesEachRegisterItsValue : Prop :=
  (∀ c : Config,
    (State.resetOf c).op = .idle ∧ (State.resetOf c).tvalid = false ∧ (State.resetOf c).err = 0 ∧
    (State.resetOf c).crcIn = 0 ∧ (State.resetOf c).addr = 0 ∧ (State.resetOf c).len = 0 ∧
    (State.resetOf c).tidx = 0 ∧ (State.resetOf c).crcOut = 0 ∧ (State.resetOf c).tdata = 0 ∧
    (State.resetOf c).errAddr = 0 ∧ (State.resetOf c).cfg = c ∧
    statusWord (State.resetOf c) = if c.endian = .be then 0x4#64 else 0x0#64) ∧
  State.reset = State.resetOf State.reset.cfg

/-- Rules R210, R211: the reset event, from any state and whatever operation runs. That it leaves the host's program and
trace and the interleaving as they are is the model's choice (log entry 16). -/
def Obligations.ResetEventEndsAnyOperation : Prop :=
  ∀ (s : State) (ts : List Turn), ∃ t,
    step { s with sched := .reset :: ts } = .next t ∧
    t.op = .idle ∧ t.tvalid = false ∧ t.err = 0 ∧ t.crcIn = 0 ∧ t.addr = 0 ∧ t.len = 0 ∧ t.tidx = 0 ∧
    t.crcOut = 0 ∧ t.tdata = 0 ∧ t.errAddr = 0 ∧
    t.cfg = s.cfg ∧ t.mem = s.mem ∧ t.busFaults = s.busFaults ∧ t.reads = s.reads ∧
    t.host = s.host ∧ t.trace = s.trace ∧ t.sched = ts

/-- The state after reset meets the invariant, for every legal instance. -/
def Obligations.ResetMeetsInvariant : Prop :=
  Inv State.reset ∧ ∀ c : Config, c.wf → Inv (State.resetOf c)

/-! Encoding (30_encoding.md) -/

/-- Rules R72, R73: the four legal words, each its command, and no other. -/
def Obligations.LegalWordsAreExactlyFour : Prop :=
  decode 0x0#64 = .cmd .nop ∧ decode 0x1#64 = .cmd .build ∧ decode 0x2#64 = .cmd .compute ∧
  decode 0x3#64 = .cmd .rdtab ∧
  ∀ w : Word, w ≠ 0x0#64 → w ≠ 0x1#64 → w ≠ 0x2#64 → w ≠ 0x3#64 → ∃ why, decode w = .illegal why

/-- Decoding the encoding of a command gives the command, and a word that decodes to a command is its encoding. -/
def Obligations.DecodeAndEncodeAgree : Prop :=
  (∀ i : Instr, Laws.Encoding.Statement i) ∧ ∀ (w : Word) (i : Instr), decode w = .cmd i → w = encode i

/-- Rules R70 to R72, on words written out: OP in bits 3..0, RSVD in bits 63..4. -/
def Obligations.WordsOfTheSpecDecode : Prop :=
  decode ((0 : BitVec 60) ++ 0b0001#4) = .cmd .build ∧
  decode ((0 : BitVec 60) ++ 0b0010#4) = .cmd .compute ∧
  decode ((0 : BitVec 60) ++ 0b0100#4) = .illegal (.reservedOp 4) ∧
  decode ((1 : BitVec 60) ++ 0b0000#4) = .illegal .reservedBits ∧
  decode 0x8000000000000002#64 = .illegal .reservedBits ∧
  decodeTableWord 64 3 = some .rdtab ∧ decodeTableWord 4 0 = some .nop

/-! Command issue (43_host_interface.md section 2, 60_exceptions.md) -/

/-- The step whose event is the host's CMD write of a command word runs that command, on the state with the host's
transaction and the turn taken away. That the host has the turn when the interleaving is used up is the model's choice
(log entry 10). -/
def Obligations.StepRunsTheDecodedCommand : Prop :=
  ∀ (s : State) (w : Word) (i : Instr) (rest : List HostOp), decode w = .cmd i →
    (∀ ts, step { s with sched := .host :: ts, host := .write 0x00 64 w :: rest }
      = exec i { s with sched := ts, host := rest }) ∧
    (s.op = .idle → step { s with sched := [], host := .write 0x00 64 w :: rest }
      = exec i { s with sched := [], host := rest }) ∧
    step (s.withFetchWord 64 w.toNat) = exec i s

/-- Rule R162's pseudocode: the checks of `issue(v)` in their order, and what the first that fails writes. `raced := []` is
the model's own record (log entry 7). -/
def Obligations.IssueChecksInOrder : Prop :=
  ∀ (v : Word) (s : State),
    issue v s =
      if s.op ≠ .idle then .next { s with err := 2 }
      else match decode v with
        | .illegal _ => .next { s with err := 1 }
        | .cmd .nop => .next { s with err := 0 }
        | .cmd .build => .next { s with err := 0, tvalid := false, op := .building }
        | .cmd .compute =>
          if s.tvalid = false then .next { s with err := 3 }
          else if s.len.toNat ≠ 0 ∧ s.addr.toNat + s.len.toNat > 2 ^ s.cfg.addrW then .next { s with err := 4 }
          else .next
            { s with
              err := 0
              acc := if s.cfg.endian = .le then s.crcIn else rev8 s.crcIn
              cur := s.addr.toNat
              rem := s.len.toNat
              op := .computing
              raced := [] }
        | .cmd .rdtab =>
          if s.tvalid = false then .next { s with err := 3 }
          else .next
            { s with err := 0, tdata := lookup s.table (s.tidx.extractLsb' 8 3).toFin (s.tidx.extractLsb' 0 8) }

/-- Rules R75, R182: an illegal word while idle sets ERR to 1 and does nothing else. -/
def Obligations.IllegalWordOnlySetsErr : Prop :=
  ∀ (s : State) (w : Word), s.op = .idle → w ≠ 0x0#64 → w ≠ 0x1#64 → w ≠ 0x2#64 → w ≠ 0x3#64 →
    regWrite 0x00 w s = .next { s with err := 1 }

/-- Rule R183: any CMD write while an operation runs sets ERR to 2 and does nothing else. -/
def Obligations.BusyRejectsEveryWord : Prop :=
  ∀ (s : State) (w : Word), s.op ≠ .idle → regWrite 0x00 w s = .next { s with err := 2 }

/-- Rules R184, R185: while idle, COMPUTE and RDTAB without a valid table set ERR to 3, and COMPUTE with a valid table
sets ERR to 4 exactly when LEN is not 0 and ADDR + LEN exceeds 2^ADDR_W, and nothing else. -/
def Obligations.NoTableAndRangeRejections : Prop :=
  ∀ s : State, s.op = .idle →
    (s.tvalid = false → exec .compute s = .next { s with err := 3 } ∧ exec .rdtab s = .next { s with err := 3 }) ∧
    (s.tvalid = true → s.len ≠ 0 → s.addr.toNat + s.len.toNat > 2 ^ s.cfg.addrW →
      exec .compute s = .next { s with err := 4 }) ∧
    (s.tvalid = true → s.len = 0 ∨ s.addr.toNat + s.len.toNat ≤ 2 ^ s.cfg.addrW →
      ∃ t, exec .compute s = .next t ∧ t.op = .computing ∧ t.err = 0)

/-! The commands (41_table_builder.md, 42_slice_accumulator.md, 43_host_interface.md) -/

/-- Rule R163: NOP while idle. -/
def Obligations.NopOnlyClearsErr : Prop :=
  ∀ s : State, s.op = .idle → exec .nop s = .next { s with err := 0 }

/-- Rule R100: BUILD while idle, with or without a valid table. -/
def Obligations.BuildStartsABuild : Prop :=
  ∀ s : State, s.op = .idle → exec .build s = .next { s with err := 0, tvalid := false, op := .building }

/-- Rule R120: COMPUTE while idle, with a valid table and a buffer inside MEM. `raced := []` is the model's own record
for rule R66: host stores before acceptance are no race. -/
def Obligations.ComputeLatchesItsOperands : Prop :=
  ∀ s : State, s.op = .idle → s.tvalid = true →
    (s.len.toNat = 0 ∨ s.addr.toNat + s.len.toNat ≤ 2 ^ s.cfg.addrW) →
    exec .compute s = .next
      { s with
        err := 0
        acc := match s.cfg.endian with
          | .le => s.crcIn
          | .be => rev8 s.crcIn
        cur := s.addr.toNat
        rem := s.len.toNat
        op := .computing
        raced := [] }

/-- Rule R164: RDTAB while idle with a valid table. -/
def Obligations.RdtabCopiesTheIndexedEntry : Prop :=
  ∀ s : State, s.op = .idle → s.tvalid = true →
    exec .rdtab s = .next
      { s with err := 0, tdata := lookup s.table (s.tidx.extractLsb' 8 3).toFin (s.tidx.extractLsb' 0 8) }

/-- Every command answers a next state in every state, and changes only what its rule lists, accepted or rejected:
in particular no byte of MEM, no TABLE entry and no host register. -/
def Obligations.CommandsChangeOnlyWhatTheyList : Prop :=
  ∀ s : State,
    (∃ t, exec .nop s = .next t ∧ t = { s with err := t.err }) ∧
    (∃ t, exec .build s = .next t ∧ t = { s with err := t.err, tvalid := t.tvalid, op := t.op }) ∧
    (∃ t, exec .compute s = .next t ∧
      t = { s with err := t.err, op := t.op, acc := t.acc, cur := t.cur, rem := t.rem, raced := t.raced }) ∧
    (∃ t, exec .rdtab s = .next t ∧ t = { s with err := t.err, tdata := t.tdata })

/-! Register access (10_state.md section 1, 43_host_interface.md section 1) -/

/-- Rule R160: a host write at each offset of the window. -/
def Obligations.RegisterWrites : Prop :=
  ∀ (s : State) (v : Word),
    regWrite 0x00 v s = issue v s ∧
    regWrite 0x10 v s = .next { s with crcIn := v } ∧
    regWrite 0x18 v s = .next { s with addr := v } ∧
    regWrite 0x20 v s = .next { s with len := v } ∧
    regWrite 0x30 v s = .next { s with tidx := (v.extractLsb' 0 11).setWidth 64 } ∧
    (∀ off ∈ [0x08, 0x28, 0x38, 0x40], regWrite off v s = .next s) ∧
    (∀ off ∈ [0x48, 0x50, 0x58, 0x60, 0x68, 0x70, 0x78], regWrite off v s = .next s)

/-- Rule R161: the value a host read returns at each offset of the window. -/
def Obligations.RegisterReadValues : Prop :=
  ∀ s : State,
    regRead 0x00 s = 0 ∧ regRead 0x08 s = statusWord s ∧ regRead 0x10 s = s.crcIn ∧ regRead 0x18 s = s.addr ∧
    regRead 0x20 s = s.len ∧ regRead 0x28 s = s.crcOut ∧ regRead 0x30 s = s.tidx ∧ regRead 0x38 s = s.tdata ∧
    regRead 0x40 s = s.errAddr ∧
    ∀ off ∈ [0x48, 0x50, 0x58, 0x60, 0x68, 0x70, 0x78], regRead off s = 0

/-- Rule R63: the event of a register read changes nothing but the host's own program and trace. -/
def Obligations.RegisterReadHasNoSideEffect : Prop :=
  ∀ (s : State) (ts : List Turn) (rest : List HostOp) (off : Nat), off % 8 = 0 → off < 0x80 →
    step { s with sched := .host :: ts, host := .read off 64 :: rest } =
      .next { s with sched := ts, host := rest, trace := (off, regRead off s) :: s.trace }

/-- Rule R22: the fields of STATUS, bit by bit. -/
def Obligations.StatusFields : Prop :=
  ∀ s : State,
    ((statusWord s).getLsbD 0 = true ↔ s.op ≠ .idle) ∧
    (statusWord s).getLsbD 1 = s.tvalid ∧
    ((statusWord s).getLsbD 2 = true ↔ s.cfg.endian = .be) ∧
    (statusWord s).getLsbD 3 = false ∧
    (statusWord s).extractLsb' 4 4 = s.err ∧
    (statusWord s).extractLsb' 8 56 = 0

/-- Rule R32: TIDX keeps bits [10:0] of what is written, and reads the rest as 0. -/
def Obligations.TidxKeepsElevenBits : Prop :=
  ∀ (s : State) (v : Word), ∃ t,
    regWrite 0x30 v s = .next t ∧ (regRead 0x30 t).extractLsb' 0 11 = v.extractLsb' 0 11 ∧
    (regRead 0x30 t).extractLsb' 11 53 = 0 ∧
    tidxCol (regRead 0x30 t) = v.extractLsb' 0 8 ∧ (tidxRow (regRead 0x30 t)).val = (v.extractLsb' 8 3).toNat

/-- Rule R35: accesses the interface does not have are refused, reads and writes alike, and no other access is. -/
def Obligations.AccessesOutsideTheInterfaceAreRefused : Prop :=
  ∀ (s : State) (ts : List Turn) (rest : List HostOp) (off width : Nat) (v : Word),
    (width ≠ 64 ∨ off % 8 ≠ 0 ∨ 0x80 ≤ off →
      (∃ r, step { s with sched := .host :: ts, host := .write off width v :: rest } = .refused r) ∧
      ∃ r, step { s with sched := .host :: ts, host := .read off width :: rest } = .refused r) ∧
    (width = 64 → off % 8 = 0 → off < 0x80 →
      (∃ t, step { s with sched := .host :: ts, host := .write off width v :: rest } = .next t) ∧
      ∃ t, step { s with sched := .host :: ts, host := .read off width :: rest } = .next t)

/-- Rule R168: `poll` reads STATUS and ends at the first read with BUSY clear. That it is one entry of the host's program,
performed once at each turn of the host and kept until then, is the model's choice (log entry 19). -/
def Obligations.PollEndsAtBusyClear : Prop :=
  ∀ (s : State) (ts : List Turn) (rest : List HostOp),
    (s.op ≠ .idle → step { s with sched := .host :: ts, host := .poll :: rest } =
      .next { s with sched := ts, host := .poll :: rest, trace := (0x08, statusWord s) :: s.trace }) ∧
    (s.op = .idle → step { s with sched := .host :: ts, host := .poll :: rest } =
      .next { s with sched := ts, host := rest, trace := (0x08, statusWord s) :: s.trace })

/-- Rules R167, R169: the pseudo-instructions expand to the transactions the table lists. -/
def Obligations.PseudoInstructionsExpand : Prop :=
  expand .init = [.write 0x00 64 0x1#64, .poll] ∧
  expand .clrerr = [.write 0x00 64 0x0#64] ∧
  (∀ i : Instr, expand (.cmd i) = [.write 0x00 64 (encode i)]) ∧
  (∀ i a n : Word, expand (.crc64 i a n) =
    [.write 0x10 64 i, .write 0x18 64 a, .write 0x20 64 n, .write 0x00 64 0x2#64, .poll, .read 0x08 64,
      .read 0x28 64]) ∧
  ∀ k n : Word, expand (.rdtab k n) =
    [.write 0x30 64 ((k <<< 8) + n), .write 0x00 64 0x3#64, .read 0x38 64]

/-! The engine's steps (41_table_builder.md, 42_slice_accumulator.md) -/

/-- Rule R121, and rules R104 and R212: which step is enabled. -/
def Obligations.StepSelection : Prop :=
  ∀ s : State,
    (s.op = .idle → enabledStep s = none) ∧
    (s.op = .building → enabledStep s = some .buildDone) ∧
    (s.op = .computing → s.rem = 0 → enabledStep s = some .finish) ∧
    (s.op = .computing → s.rem ≠ 0 → s.cur % 8 ≠ 0 ∨ s.rem < 8 → enabledStep s = some .bstep) ∧
    (s.op = .computing → s.rem ≠ 0 → s.cur % 8 = 0 → 8 ≤ s.rem → enabledStep s = some .wstep)

/-- Rules R101, R102: the logical table of the instance whose CRC_FN is `crcFn`. -/
def Obligations.LogicalTableRows : Prop :=
  ∀ (crcFn : Word → List Byte → Word) (e : Endian) (w : Nat) (n : Byte),
    logical (configOf e crcFn w) 0 n = crcFn 0 [n] ∧
    ∀ k, logical (configOf e crcFn w) (k + 1) n =
      crcFn 0 [(logical (configOf e crcFn w) k n &&& 0xFF#64).setWidth 8] ^^^ (logical (configOf e crcFn w) k n >>> 8)

/-- Rules R103, R104: BUILD_DONE writes every entry in stored orientation, sets TVALID, and returns to IDLE. -/
def Obligations.BuildDoneWritesTheTable : Prop :=
  ∀ s : State, s.op = .building → ∃ t,
    engineStep s = .next t ∧ t = { s with table := t.table, tvalid := true, op := .idle } ∧
    ∀ (k : Fin 8) (n : Byte), lookup t.table k n =
      match s.cfg.endian with
      | .le => logical s.cfg k.val n
      | .be => rev8 (logical s.cfg k.val n)

/-- Rule R122: BSTEP under ENDIAN = LE, when MEM answers with data. -/
def Obligations.ByteStepLittleEndian : Prop :=
  ∀ s : State, s.cfg.endian = .le → s.op = .computing → s.rem ≠ 0 → s.cur % 8 ≠ 0 ∨ s.rem < 8 →
    s.cur < memSize s → busFaulted s.busFaults s.cur .byte = false →
    engineStep s = .next
      { s with
        acc := lookup s.table 0 (maskFF (s.acc ^^^ zext64 (raceRead s s.cur s.draws))) ^^^ (s.acc >>> 8)
        cur := s.cur + 1
        rem := s.rem - 1
        reads := ⟨s.cur, .byte⟩ :: s.reads
        draws := s.draws + 1 }

/-- Rule R123: BSTEP under ENDIAN = BE, when MEM answers with data. -/
def Obligations.ByteStepBigEndian : Prop :=
  ∀ s : State, s.cfg.endian = .be → s.op = .computing → s.rem ≠ 0 → s.cur % 8 ≠ 0 ∨ s.rem < 8 →
    s.cur < memSize s → busFaulted s.busFaults s.cur .byte = false →
    engineStep s = .next
      { s with
        acc := lookup s.table 0 (maskFF ((s.acc >>> 56) ^^^ zext64 (raceRead s s.cur s.draws))) ^^^ (s.acc <<< 8)
        cur := s.cur + 1
        rem := s.rem - 1
        reads := ⟨s.cur, .byte⟩ :: s.reads
        draws := s.draws + 1 }

/-- Rule R124: WSTEP under ENDIAN = LE, when MEM answers with data. -/
def Obligations.WordStepLittleEndian : Prop :=
  ∀ (s : State) (x : Word), s.cfg.endian = .le → s.op = .computing → s.cur % 8 = 0 → 8 ≤ s.rem →
    s.cur + 8 ≤ memSize s → busFaulted s.busFaults s.cur .word = false →
    x = s.acc ^^^ le64 ((List.range 8).map fun i => raceRead s (s.cur + i) (s.draws + i)) →
    engineStep s = .next
      { s with
        acc := lookup s.table 7 (byteOf x 0) ^^^ lookup s.table 6 (byteOf x 1) ^^^ lookup s.table 5 (byteOf x 2) ^^^
          lookup s.table 4 (byteOf x 3) ^^^ lookup s.table 3 (byteOf x 4) ^^^ lookup s.table 2 (byteOf x 5) ^^^
          lookup s.table 1 (byteOf x 6) ^^^ lookup s.table 0 (byteOf x 7)
        cur := s.cur + 8
        rem := s.rem - 8
        reads := ⟨s.cur, .word⟩ :: s.reads
        draws := s.draws + 8 }

/-- Rule R125: WSTEP under ENDIAN = BE, when MEM answers with data. -/
def Obligations.WordStepBigEndian : Prop :=
  ∀ (s : State) (x : Word), s.cfg.endian = .be → s.op = .computing → s.cur % 8 = 0 → 8 ≤ s.rem →
    s.cur + 8 ≤ memSize s → busFaulted s.busFaults s.cur .word = false →
    x = s.acc ^^^ be64 ((List.range 8).map fun i => raceRead s (s.cur + i) (s.draws + i)) →
    engineStep s = .next
      { s with
        acc := lookup s.table 0 (byteOf x 0) ^^^ lookup s.table 1 (byteOf x 1) ^^^ lookup s.table 2 (byteOf x 2) ^^^
          lookup s.table 3 (byteOf x 3) ^^^ lookup s.table 4 (byteOf x 4) ^^^ lookup s.table 5 (byteOf x 5) ^^^
          lookup s.table 6 (byteOf x 6) ^^^ lookup s.table 7 (byteOf x 7)
        cur := s.cur + 8
        rem := s.rem - 8
        reads := ⟨s.cur, .word⟩ :: s.reads
        draws := s.draws + 8 }

/-- Rule R126: FINISH writes CRC_OUT in logical orientation and returns to IDLE. Of acc, cur and rem, and of the model's
own draw counter, nothing is said. -/
def Obligations.FinishWritesCrcOut : Prop :=
  ∀ s : State, s.op = .computing → s.rem = 0 → ∃ t,
    engineStep s = .next t ∧
    t = { s with
          crcOut := (match s.cfg.endian with
            | .le => s.acc
            | .be => rev8 s.acc)
          op := .idle
          acc := t.acc
          cur := t.cur
          rem := t.rem
          draws := t.draws }

/-- Rules R127, R186: a step whose read MEM answers with fault is ABORT at the read's address. Of acc, cur and rem,
and of the model's own draw counter, nothing is said. -/
def Obligations.AbortOnBusFault : Prop :=
  ∀ (s : State) (sz : ReadSize), Inv s → s.op = .computing → s.rem ≠ 0 →
    sz = (if s.cur % 8 ≠ 0 ∨ s.rem < 8 then .byte else .word) → busFaulted s.busFaults s.cur sz = true → ∃ t,
    engineStep s = .next t ∧ t.errAddr.toNat = s.cur ∧
    t = { s with
          err := 5
          errAddr := t.errAddr
          op := .idle
          reads := ⟨s.cur, sz⟩ :: s.reads
          acc := t.acc
          cur := t.cur
          rem := t.rem
          draws := t.draws }

/-- Rule R128: the cursor and the count are exact, their sum is constant, and every read lies inside MEM. -/
def Obligations.CursorArithmeticIsExact : Prop :=
  ∀ s : State, Inv s → s.op = .computing → s.rem ≠ 0 → ∃ t sz,
    engineStep s = .next t ∧ t.reads = ⟨s.cur, sz⟩ :: s.reads ∧
    s.cur + sz.bytes ≤ 2 ^ s.cfg.addrW ∧ sz.bytes ≤ s.rem ∧
    (t.op = .computing →
      t.cur = s.cur + sz.bytes ∧ t.rem = s.rem - sz.bytes ∧ t.cur + t.rem = s.cur + s.rem ∧
      t.cur + t.rem ≤ 2 ^ s.cfg.addrW)

/-- Rule R166: the engine's steps do not depend on CRC_IN, ADDR, LEN or TIDX, and leave what a host writes there. -/
def Obligations.RunningOperationIgnoresOperandRegisters : Prop :=
  ∀ (s t : State) (i a n x : Word), engineStep s = .next t →
    engineStep { s with crcIn := i, addr := a, len := n, tidx := x } =
      .next { t with crcIn := i, addr := a, len := n, tidx := x }

/-! Who writes what, over every step (10_state.md, 20_memory.md, 42_slice_accumulator.md rule R140) -/

/-- The invariant of a good state is kept by every step. -/
def Obligations.StepKeepsInvariant : Prop :=
  ∀ s t : State, Inv s → step s = .next t → Inv t

/-- From a good state, a step stops only for a host transaction: a store outside MEM, or an access the register
interface does not have. The engine, reset and the platform never stop the machine. -/
def Obligations.OnlyTheHostCanStopTheMachine : Prop :=
  ∀ s : State, Inv s → (∀ t, step s ≠ .next t) → turnOf s = .host ∧ ∃ op rest, s.host = op :: rest ∧
    op.wf (memSize s) = false

/-- Rules R6 to R8: no event changes ENDIAN, CRC_FN or ADDR_W. -/
def Obligations.ParametersNeverChange : Prop :=
  ∀ s t : State, step s = .next t → t.cfg = s.cfg

/-- Rule R36: TABLE changes only at BUILD_DONE, and becomes unspecified at reset. -/
def Obligations.TableWrittenOnlyByBuildDone : Prop :=
  ∀ s t : State, step s = .next t → t.table ≠ s.table →
    turnOf s = .reset ∨ turnOf s = .engine ∧ s.op = .building ∧ t.table = storedTable s.cfg

/-- Rule R24: TVALID is cleared by reset and by acceptance of BUILD, set by BUILD_DONE, and written by nothing else. -/
def Obligations.TvalidWriters : Prop :=
  ∀ s t : State, step s = .next t → t.tvalid ≠ s.tvalid →
    turnOf s = .reset ∧ t.tvalid = false ∨
    turnOf s = .engine ∧ s.op = .building ∧ t.tvalid = true ∨
    turnOf s = .host ∧ s.op = .idle ∧ (∃ rest, s.host = .write 0x00 64 0x1#64 :: rest) ∧ t.tvalid = false

/-- Rules R26, R28 to R34: which event may change each host register and STATUS.ERR. -/
def Obligations.RegisterWriters : Prop :=
  ∀ s t : State, step s = .next t →
    (t.crcIn ≠ s.crcIn → turnOf s = .reset ∨
      turnOf s = .host ∧ ∃ rest, s.host = .write 0x10 64 t.crcIn :: rest) ∧
    (t.addr ≠ s.addr → turnOf s = .reset ∨
      turnOf s = .host ∧ ∃ rest, s.host = .write 0x18 64 t.addr :: rest) ∧
    (t.len ≠ s.len → turnOf s = .reset ∨
      turnOf s = .host ∧ ∃ rest, s.host = .write 0x20 64 t.len :: rest) ∧
    (t.tidx ≠ s.tidx → turnOf s = .reset ∨ turnOf s = .host ∧ ∃ v rest, s.host = .write 0x30 64 v :: rest) ∧
    (t.crcOut ≠ s.crcOut → turnOf s = .reset ∨ turnOf s = .engine ∧ enabledStep s = some .finish) ∧
    (t.tdata ≠ s.tdata → turnOf s = .reset ∨
      turnOf s = .host ∧ s.op = .idle ∧ s.tvalid = true ∧ ∃ rest, s.host = .write 0x00 64 0x3#64 :: rest) ∧
    (t.errAddr ≠ s.errAddr → turnOf s = .reset ∨
      turnOf s = .engine ∧ s.op = .computing ∧ t.op = .idle ∧ t.err = 5) ∧
    (t.err ≠ s.err → turnOf s = .reset ∧ t.err = 0 ∨
      turnOf s = .host ∧ (∃ v rest, s.host = .write 0x00 64 v :: rest) ∧ t.err.toNat ≤ 4 ∨
      turnOf s = .engine ∧ s.op = .computing ∧ t.op = .idle ∧ t.err = 5)

/-- Rule R38: the events that change op. -/
def Obligations.OperationStateTransitions : Prop :=
  ∀ s t : State, step s = .next t → t.op ≠ s.op →
    turnOf s = .reset ∧ t.op = .idle ∨
    turnOf s = .host ∧ s.op = .idle ∧ t.op = .building ∧ (∃ rest, s.host = .write 0x00 64 0x1#64 :: rest) ∨
    turnOf s = .host ∧ s.op = .idle ∧ t.op = .computing ∧ s.tvalid = true ∧
      (∃ rest, s.host = .write 0x00 64 0x2#64 :: rest) ∨
    turnOf s = .engine ∧ s.op ≠ .idle ∧ t.op = .idle

/-- Rules R52, R66: no command, engine step, reset or register access changes MEM. A host store does, whatever op is: the
step answers a next state in which its byte holds the stored value and every other byte is as before (the host's store is
the model's own transaction, log entry 13). -/
def Obligations.OnlyHostStoresChangeMem : Prop :=
  ∀ s t : State, Inv s → step s = .next t →
    ((¬ ∃ a b rest, turnOf s = .host ∧ s.host = .store a b :: rest) → t.mem = s.mem) ∧
    ∀ a b rest, turnOf s = .host → s.host = .store a b :: rest →
      t.mem.read a = b ∧ ∀ x, x ≠ a → t.mem.read x = s.mem.read x

/-- Rules R66, R213: a raced byte reads as the old value or one written since acceptance. A host store inside MEM answers a
next state whatever op is: it writes its byte and no other, and changes nothing else but the record of races, to which it
adds the value it replaces while COMPUTING and nothing otherwise. Which values may be drawn, and the record, are the model's
reading (log entry 7); the store is the model's own transaction (log entry 13). -/
def Obligations.RacedByteReadsOldOrWritten : Prop :=
  (∀ (s : State) (a d : Nat), raceRead s a d ∈ s.mem.read a :: racedValues s.raced a) ∧
  ∀ (s : State) (a : Nat) (b : Byte) (ts : List Turn) (rest : List HostOp), Inv s → a < memSize s → ∃ t,
    step { s with sched := .host :: ts, host := .store a b :: rest } = .next t ∧
    t = { s with sched := ts, host := rest, mem := t.mem, raced := t.raced } ∧
    t.mem.read a = b ∧ (∀ x, x ≠ a → t.mem.read x = s.mem.read x) ∧
    (s.op = .computing →
      racedValues t.raced a = s.mem.read a :: racedValues s.raced a ∧
      ∀ x, x ≠ a → racedValues t.raced x = racedValues s.raced x) ∧
    (s.op ≠ .computing → t.raced = s.raced)

/-! Bytes and rows (00_scope.md section 3, 41_table_builder.md section 3) -/

/-- Rule R12: what rev8 is, the two facts that follow, and its example. -/
def Obligations.Rev8ReversesBytes : Prop :=
  (∀ (x : Word) (i : Nat), i < 8 → byteOf (rev8 x) i = byteOf x (7 - i)) ∧
  (∀ x : Word, rev8 (rev8 x) = x) ∧ (∀ x y : Word, rev8 (x ^^^ y) = rev8 x ^^^ rev8 y) ∧
  rev8 0x0123456789abcdef#64 = 0xefcdab8967452301#64

/-- Rule R13: the two assemblies place byte i of the buffer at byte i (LE) or byte 7 - i (BE), and are byte-reversals
of each other. -/
def Obligations.WordAssembliesMirror : Prop :=
  ∀ bs : List Byte, bs.length = 8 →
    (∀ i, i < 8 → byteOf (le64 bs) i = bs.getD i 0) ∧ (∀ i, i < 8 → byteOf (be64 bs) (7 - i) = bs.getD i 0) ∧
    be64 bs = rev8 (le64 bs)

/-- Rule R107: row k is row 0 followed by k zero bytes, and CRC_FN's value there under P_ref. -/
def Obligations.RowIsZeroByteSteps : Prop :=
  ∀ (c : Config) (k : Nat) (n : Byte),
    logical c k n = logicalFold c (logical c 0 n) (List.replicate k 0) ∧
    ∀ crcFn, PRef c crcFn → logical c k n = crcFn 0 (n :: List.replicate k 0)

/-- Rule R108: under P_lin every row is XOR-linear, and its entry 0 is 0. -/
def Obligations.RowsAreLinear : Prop :=
  ∀ c : Config, PLin c → ∀ k : Nat,
    (∀ a b : Byte, logical c k (a ^^^ b) = logical c k a ^^^ logical c k b) ∧ logical c k 0 = 0

/-- Rule R135: under P_lin, a word step is eight byte steps. -/
def Obligations.WordStepIsEightByteSteps : Prop :=
  ∀ (c : Config) (acc : Word) (bs : List Byte), PLin c → c.endian = .le → bs.length = 8 →
    wordStep .le (storedTable c) acc bs = logicalFold c acc bs ∧
    wordStep .le (storedTable c) acc bs = bs.foldl (byteStep .le (storedTable c)) acc

/-! Whole operations (42_slice_accumulator.md sections 6 and 7, 70_reset_and_hazards.md) -/

/-- Rule R62: the planned reads cover every byte of the buffer exactly once, in increasing address order, and each
8-byte read is aligned. -/
def Obligations.ReadPlanCoversTheBufferOnce : Prop :=
  ∀ a n : Nat,
    (readPlan a n).flatMap (fun r => List.range' r.addr r.size.bytes) = List.range' a n ∧
    ∀ r ∈ readPlan a n, r.size = .word → r.addr % 8 = 0

/-- Rules R129, R130: a COMPUTE that MEM answers with data takes head, body and tail reads in that order and one FINISH:
it still runs before h + q + t + 1 engine steps, and is done after them. -/
def Obligations.ComputeTakesItsPhases : Prop :=
  ∀ s : State, Inv s → s.op = .computing → BusQuiet s s.cur s.rem →
    (∀ k, k < stepCount s.cur s.rem → ∃ t, engineRun k s = .next t ∧ t.op = .computing ∧
      t.reads = ((readPlan s.cur s.rem).take k).reverse ++ s.reads) ∧
    (∃ t, engineRun (stepCount s.cur s.rem) s = .next t ∧ t.op = .idle ∧ t.err = s.err ∧
      t.reads = (readPlan s.cur s.rem).reverse ++ s.reads) ∧
    stepCount s.cur s.rem ≤ s.rem + 1

/-- Rules R62, R127, R190: the first planned read that MEM answers with fault ends the COMPUTE there, and later reads
are not made. -/
def Obligations.FirstFaultEndsTheCompute : Prop :=
  ∀ (s : State) (j : Nat) (r : ReadReq), Inv s → s.op = .computing → (readPlan s.cur s.rem)[j]? = some r →
    (∀ i q, i < j → (readPlan s.cur s.rem)[i]? = some q → busFaulted s.busFaults q.addr q.size = false) →
    busFaulted s.busFaults r.addr r.size = true → ∃ t,
    engineRun (j + 1) s = .next t ∧ t.op = .idle ∧ t.err = 5 ∧ t.errAddr.toNat = r.addr ∧
    t.crcOut = s.crcOut ∧ t.table = s.table ∧ t.tvalid = s.tvalid ∧ t.crcIn = s.crcIn ∧ t.addr = s.addr ∧
    t.len = s.len ∧ t.tidx = s.tidx ∧ t.tdata = s.tdata ∧ t.mem = s.mem ∧
    t.reads = ((readPlan s.cur s.rem).take (j + 1)).reverse ++ s.reads

/-- Rule R222: with the engine's turns alone, every running operation is over after at most rem + 1 steps, whatever MEM
answers: a build after one, a COMPUTE after at most the bytes left and one more. It rests
on the spec's assumption that MEM answers every read (rule R224, log entry 15). -/
def Obligations.EveryOperationCompletes : Prop :=
  ∀ s : State, Inv s →
    (s.op = .building → ∃ t, engineRun 1 s = .next t ∧ t.op = .idle ∧ t.tvalid = true) ∧
    (s.op = .computing → ∃ k t, k ≤ s.rem + 1 ∧ engineRun k s = .next t ∧ t.op = .idle)

/-- Rule R132: a COMPUTE of length 0 is accepted for every ADDR, reads nothing, and returns CRC_IN in one step. -/
def Obligations.ZeroLengthReturnsCrcIn : Prop :=
  ∀ s : State, s.op = .idle → s.tvalid = true → s.len = 0 → ∃ t u,
    exec .compute s = .next t ∧ engineRun 1 t = .next u ∧ u.op = .idle ∧ u.err = 0 ∧ u.crcOut = s.crcIn ∧
    u.reads = s.reads

/-- Rules R133, R134, R56: two instances that differ only in ENDIAN stay together at every step: the same reads, the
accumulators byte-reversed, the same CRC_OUT, ERR and ERR_ADDR, the same stops. -/
def Obligations.EndianTwinsStayTogether : Prop :=
  ∀ s t : State, Inv s → Twin s t →
    match step s with
    | .next s' => ∃ t', step t = .next t' ∧ Twin s' t'
    | .fault r => step t = .fault r
    | .refused r => step t = .refused r

/-- Rule R134: over whole runs under any interleaving, CRC_OUT does not depend on ENDIAN. -/
def Obligations.CrcOutIndependentOfEndian : Prop :=
  ∀ (k : Nat) (s t u : State), Inv s → Twin s t → run k s = .next u →
    ∃ v, run k t = .next v ∧ v.crcOut = u.crcOut ∧ v.err = u.err ∧ v.errAddr = u.errAddr ∧ v.reads = u.reads

/-- Rules R120, R129: a COMPUTE whose buffer lies in MEM and is answered with data finishes, when the turns that follow
are the engine's. -/
def Obligations.ComputeFinishesOnAQuietBus : Prop :=
  ∀ s : State, s.op = .idle → s.tvalid = true → rangeOk s → BusQuiet s s.addr.toNat s.len.toNat →
    ∃ u, ComputesTo { s with sched := List.replicate (stepCount s.addr.toNat s.len.toNat) .engine } u

/-- Rule R136: under P_lin a COMPUTE that finishes writes S*(CRC_IN, B), for either ENDIAN, every ADDR
and every interleaving. -/
def Obligations.ComputeIsTheByteFold : Prop :=
  ∀ s u : State, Inv s → PLin s.cfg → ComputesTo s u →
    u.crcOut = logicalFold s.cfg s.crcIn (bytesAt s.mem s.addr.toNat s.len.toNat)

/-- Rule R137: under P_lin and P_ref a COMPUTE that finishes writes CRC_FN(CRC_IN, B). -/
def Obligations.ComputeEqualsTheReference : Prop :=
  ∀ (crcFn : Word → List Byte → Word) (s u : State), Inv s → Represents s.cfg crcFn → PLin s.cfg → PRef s.cfg crcFn →
    ComputesTo s u → u.crcOut = crcFn s.crcIn (bytesAt s.mem s.addr.toNat s.len.toNat)

/-- Rule R138: under P_lin, a COMPUTE over B1 and one over B2 from its result give what one over B1 ++ B2 gives,
wherever the buffers lie. -/
def Obligations.ChainedComputesAgree : Prop :=
  ∀ s1 u1 s2 u2 s3 u3 : State, Inv s1 → Inv s2 → Inv s3 → PLin s1.cfg → s2.cfg = s1.cfg → s3.cfg = s1.cfg →
    ComputesTo s1 u1 → ComputesTo s2 u2 → ComputesTo s3 u3 → s2.crcIn = u1.crcOut → s3.crcIn = s1.crcIn →
    bytesAt s3.mem s3.addr.toNat s3.len.toNat =
      bytesAt s1.mem s1.addr.toNat s1.len.toNat ++ bytesAt s2.mem s2.addr.toNat s2.len.toNat →
    u3.crcOut = u2.crcOut
end

