-- ==== Sys2Proof/Laws/Bytes.lean ====
section
/-! SUPPORT. Words as eight bytes: extensionality, and the bytes of XORs, shifts, lanes and reversals (rules R12, R13). -/

namespace Sys2Proof.Machine

theorem byteOf_getLsbD (x : Word) (i j : Nat) (h : j < 8) : (byteOf x i).getLsbD j = x.getLsbD (8 * i + j) := by
  simp [byteOf, h]

/-- Two words with the same eight bytes are the same word. -/
theorem word_ext {x y : Word} (h : ∀ i, i < 8 → byteOf x i = byteOf y i) : x = y := by
  apply BitVec.eq_of_getLsbD_eq
  intro k hk
  have e := congrArg (fun b : Byte => b.getLsbD (k % 8)) (h (k / 8) (by omega))
  simp only [byteOf_getLsbD _ _ _ (Nat.mod_lt k (by decide)), Nat.div_add_mod] at e
  exact e

@[simp] theorem byteOf_xor (x y : Word) (i : Nat) : byteOf (x ^^^ y) i = byteOf x i ^^^ byteOf y i := by
  simp [byteOf, BitVec.extractLsb'_xor]

@[simp] theorem byteOf_zero (i : Nat) : byteOf 0 i = 0 := by
  simp [byteOf]

theorem byteOf_shiftRight (x : Word) (i : Nat) : byteOf (x >>> 8) i = byteOf x (i + 1) := by
  apply BitVec.eq_of_getLsbD_eq
  intro j hj
  simp [byteOf, hj, Nat.mul_add]
  congr 1
  omega

theorem byteOf_high (x : Word) (i : Nat) (h : 8 ≤ i) : byteOf x i = 0 := by
  apply BitVec.eq_of_getLsbD_eq
  intro j hj
  simp [byteOf, hj]
  apply BitVec.getLsbD_of_ge
  omega

theorem byteOf_shiftLeft_zero (x : Word) : byteOf (x <<< 8) 0 = 0 := by
  apply BitVec.eq_of_getLsbD_eq
  intro j hj
  simp [byteOf, hj]

theorem byteOf_shiftLeft (x : Word) (i : Nat) (h : i + 1 < 8) : byteOf (x <<< 8) (i + 1) = byteOf x i := by
  apply BitVec.eq_of_getLsbD_eq
  intro j hj
  simp [byteOf, hj]
  have : 8 * (i + 1) + j - 8 = 8 * i + j := by omega
  rw [this]
  simp; omega

theorem maskFF_eq_byteOf (x : Word) : maskFF x = byteOf x 0 := by
  have h8 : ∀ k : Fin 8, (255#8)[k.val] = true := by decide
  apply BitVec.eq_of_getLsbD_eq
  intro j hj
  simpa [maskFF, byteOf, hj] using fun _ => h8 ⟨j, hj⟩

@[simp] theorem maskFF_xor (x y : Word) : maskFF (x ^^^ y) = maskFF x ^^^ maskFF y := by
  simp [maskFF_eq_byteOf]

@[simp] theorem byteOf_zext64_zero (b : Byte) : byteOf (zext64 b) 0 = b := by
  apply BitVec.eq_of_getLsbD_eq
  intro j hj
  simp [byteOf, zext64, hj]
  omega

theorem byteOf_zext64_succ (b : Byte) (i : Nat) : byteOf (zext64 b) (i + 1) = 0 := by
  apply BitVec.eq_of_getLsbD_eq
  intro j hj
  simp [byteOf, zext64, hj]
  intro _
  apply BitVec.getLsbD_of_ge
  omega

@[simp] theorem maskFF_zext64 (b : Byte) : maskFF (zext64 b) = b := by
  simp [maskFF_eq_byteOf]

/-- A byte put at position `p` is read back there and nowhere else. -/
theorem byteOf_zext64_shiftLeft (b : Byte) (p i : Nat) (hp : p < 8) (hi : i < 8) :
    byteOf (zext64 b <<< (8 * p)) i = if i = p then b else 0 := by
  apply BitVec.eq_of_getLsbD_eq
  intro j hj
  have h64 : 8 * i + j < 64 := by omega
  by_cases h : i = p
  · subst h
    simp [byteOf, zext64, hj, h64]
  · by_cases h2 : i < p
    · have : 8 * i + j < 8 * p := by omega
      simp [byteOf, zext64, hj, h, this]
    · have h3 : ¬ 8 * i + j < 8 * p := by omega
      have h4 : b.getLsbD (8 * i + j - 8 * p) = false := BitVec.getLsbD_of_ge _ _ (by omega)
      simp [byteOf, zext64, hj, h, h3, h64, h4]

theorem byteOf_xorLanes (f : Fin 8 → Word) (i : Nat) :
    byteOf (xorLanes f) i = byteOf (f 0) i ^^^ byteOf (f 1) i ^^^ byteOf (f 2) i ^^^ byteOf (f 3) i ^^^ byteOf (f 4) i
      ^^^ byteOf (f 5) i ^^^ byteOf (f 6) i ^^^ byteOf (f 7) i := by
  simp [xorLanes]

/-- The bytes of eight lanes, each holding one byte at its own position. -/
theorem byteOf_lanes (g : Fin 8 → Byte) (i : Fin 8) :
    byteOf (xorLanes fun j => zext64 (g j) <<< (8 * j.val)) i = g i := by
  rw [byteOf_xorLanes]
  simp only [byteOf_zext64_shiftLeft _ _ _ (Fin.isLt _) i.isLt]
  fin_cases i <;> simp

/-- The bytes of eight lanes, each holding one byte at the mirrored position. -/
theorem byteOf_lanes_rev (g : Fin 8 → Byte) (i : Fin 8) :
    byteOf (xorLanes fun j => zext64 (g j) <<< (8 * j.rev.val)) i = g i.rev := by
  rw [byteOf_xorLanes]
  simp only [byteOf_zext64_shiftLeft _ _ _ (Fin.isLt _) i.isLt]
  fin_cases i <;> simp [Fin.rev]

theorem byteOf_rev8_fin (x : Word) (i : Fin 8) : byteOf (rev8 x) i = byteOf x i.rev := byteOf_lanes_rev _ i

theorem byteOf_le64 (bs : List Byte) (i : Fin 8) : byteOf (le64 bs) i = bs.getD i 0 := byteOf_lanes _ i

theorem byteOf_be64 (bs : List Byte) (i : Fin 8) : byteOf (be64 bs) i = bs.getD i.rev 0 := byteOf_lanes_rev _ i

end Sys2Proof.Machine
end

