-- ==== Sys2Proof/Laws/State.lean ====
section
/-! SUPPORT. One lemma per field per named update of State, each true by rfl, so that no proof unfolds an update. -/

namespace Sys2Proof.Machine

@[simp] theorem State.setErr_cfg (s : State) (e : BitVec 4) : (s.setErr e).cfg = s.cfg := rfl
@[simp] theorem State.setErr_op (s : State) (e : BitVec 4) : (s.setErr e).op = s.op := rfl
@[simp] theorem State.setErr_tvalid (s : State) (e : BitVec 4) : (s.setErr e).tvalid = s.tvalid := rfl
@[simp] theorem State.setErr_err (s : State) (e : BitVec 4) : (s.setErr e).err = e := rfl
@[simp] theorem State.setErr_crcIn (s : State) (e : BitVec 4) : (s.setErr e).crcIn = s.crcIn := rfl
@[simp] theorem State.setErr_addr (s : State) (e : BitVec 4) : (s.setErr e).addr = s.addr := rfl
@[simp] theorem State.setErr_len (s : State) (e : BitVec 4) : (s.setErr e).len = s.len := rfl
@[simp] theorem State.setErr_crcOut (s : State) (e : BitVec 4) : (s.setErr e).crcOut = s.crcOut := rfl
@[simp] theorem State.setErr_tidx (s : State) (e : BitVec 4) : (s.setErr e).tidx = s.tidx := rfl
@[simp] theorem State.setErr_tdata (s : State) (e : BitVec 4) : (s.setErr e).tdata = s.tdata := rfl
@[simp] theorem State.setErr_errAddr (s : State) (e : BitVec 4) : (s.setErr e).errAddr = s.errAddr := rfl
@[simp] theorem State.setErr_table (s : State) (e : BitVec 4) : (s.setErr e).table = s.table := rfl
@[simp] theorem State.setErr_acc (s : State) (e : BitVec 4) : (s.setErr e).acc = s.acc := rfl
@[simp] theorem State.setErr_cur (s : State) (e : BitVec 4) : (s.setErr e).cur = s.cur := rfl
@[simp] theorem State.setErr_rem (s : State) (e : BitVec 4) : (s.setErr e).rem = s.rem := rfl
@[simp] theorem State.setErr_mem (s : State) (e : BitVec 4) : (s.setErr e).mem = s.mem := rfl
@[simp] theorem State.setErr_busFaults (s : State) (e : BitVec 4) : (s.setErr e).busFaults = s.busFaults := rfl
@[simp] theorem State.setErr_raced (s : State) (e : BitVec 4) : (s.setErr e).raced = s.raced := rfl
@[simp] theorem State.setErr_draws (s : State) (e : BitVec 4) : (s.setErr e).draws = s.draws := rfl
@[simp] theorem State.setErr_reads (s : State) (e : BitVec 4) : (s.setErr e).reads = s.reads := rfl
@[simp] theorem State.setErr_host (s : State) (e : BitVec 4) : (s.setErr e).host = s.host := rfl
@[simp] theorem State.setErr_sched (s : State) (e : BitVec 4) : (s.setErr e).sched = s.sched := rfl
@[simp] theorem State.setErr_trace (s : State) (e : BitVec 4) : (s.setErr e).trace = s.trace := rfl

@[simp] theorem State.setOp_cfg (s : State) (o : Op) : (s.setOp o).cfg = s.cfg := rfl
@[simp] theorem State.setOp_op (s : State) (o : Op) : (s.setOp o).op = o := rfl
@[simp] theorem State.setOp_tvalid (s : State) (o : Op) : (s.setOp o).tvalid = s.tvalid := rfl
@[simp] theorem State.setOp_err (s : State) (o : Op) : (s.setOp o).err = s.err := rfl
@[simp] theorem State.setOp_crcIn (s : State) (o : Op) : (s.setOp o).crcIn = s.crcIn := rfl
@[simp] theorem State.setOp_addr (s : State) (o : Op) : (s.setOp o).addr = s.addr := rfl
@[simp] theorem State.setOp_len (s : State) (o : Op) : (s.setOp o).len = s.len := rfl
@[simp] theorem State.setOp_crcOut (s : State) (o : Op) : (s.setOp o).crcOut = s.crcOut := rfl
@[simp] theorem State.setOp_tidx (s : State) (o : Op) : (s.setOp o).tidx = s.tidx := rfl
@[simp] theorem State.setOp_tdata (s : State) (o : Op) : (s.setOp o).tdata = s.tdata := rfl
@[simp] theorem State.setOp_errAddr (s : State) (o : Op) : (s.setOp o).errAddr = s.errAddr := rfl
@[simp] theorem State.setOp_table (s : State) (o : Op) : (s.setOp o).table = s.table := rfl
@[simp] theorem State.setOp_acc (s : State) (o : Op) : (s.setOp o).acc = s.acc := rfl
@[simp] theorem State.setOp_cur (s : State) (o : Op) : (s.setOp o).cur = s.cur := rfl
@[simp] theorem State.setOp_rem (s : State) (o : Op) : (s.setOp o).rem = s.rem := rfl
@[simp] theorem State.setOp_mem (s : State) (o : Op) : (s.setOp o).mem = s.mem := rfl
@[simp] theorem State.setOp_busFaults (s : State) (o : Op) : (s.setOp o).busFaults = s.busFaults := rfl
@[simp] theorem State.setOp_raced (s : State) (o : Op) : (s.setOp o).raced = s.raced := rfl
@[simp] theorem State.setOp_draws (s : State) (o : Op) : (s.setOp o).draws = s.draws := rfl
@[simp] theorem State.setOp_reads (s : State) (o : Op) : (s.setOp o).reads = s.reads := rfl
@[simp] theorem State.setOp_host (s : State) (o : Op) : (s.setOp o).host = s.host := rfl
@[simp] theorem State.setOp_sched (s : State) (o : Op) : (s.setOp o).sched = s.sched := rfl
@[simp] theorem State.setOp_trace (s : State) (o : Op) : (s.setOp o).trace = s.trace := rfl

@[simp] theorem State.setTvalid_cfg (s : State) (b : Bool) : (s.setTvalid b).cfg = s.cfg := rfl
@[simp] theorem State.setTvalid_op (s : State) (b : Bool) : (s.setTvalid b).op = s.op := rfl
@[simp] theorem State.setTvalid_tvalid (s : State) (b : Bool) : (s.setTvalid b).tvalid = b := rfl
@[simp] theorem State.setTvalid_err (s : State) (b : Bool) : (s.setTvalid b).err = s.err := rfl
@[simp] theorem State.setTvalid_crcIn (s : State) (b : Bool) : (s.setTvalid b).crcIn = s.crcIn := rfl
@[simp] theorem State.setTvalid_addr (s : State) (b : Bool) : (s.setTvalid b).addr = s.addr := rfl
@[simp] theorem State.setTvalid_len (s : State) (b : Bool) : (s.setTvalid b).len = s.len := rfl
@[simp] theorem State.setTvalid_crcOut (s : State) (b : Bool) : (s.setTvalid b).crcOut = s.crcOut := rfl
@[simp] theorem State.setTvalid_tidx (s : State) (b : Bool) : (s.setTvalid b).tidx = s.tidx := rfl
@[simp] theorem State.setTvalid_tdata (s : State) (b : Bool) : (s.setTvalid b).tdata = s.tdata := rfl
@[simp] theorem State.setTvalid_errAddr (s : State) (b : Bool) : (s.setTvalid b).errAddr = s.errAddr := rfl
@[simp] theorem State.setTvalid_table (s : State) (b : Bool) : (s.setTvalid b).table = s.table := rfl
@[simp] theorem State.setTvalid_acc (s : State) (b : Bool) : (s.setTvalid b).acc = s.acc := rfl
@[simp] theorem State.setTvalid_cur (s : State) (b : Bool) : (s.setTvalid b).cur = s.cur := rfl
@[simp] theorem State.setTvalid_rem (s : State) (b : Bool) : (s.setTvalid b).rem = s.rem := rfl
@[simp] theorem State.setTvalid_mem (s : State) (b : Bool) : (s.setTvalid b).mem = s.mem := rfl
@[simp] theorem State.setTvalid_busFaults (s : State) (b : Bool) : (s.setTvalid b).busFaults = s.busFaults := rfl
@[simp] theorem State.setTvalid_raced (s : State) (b : Bool) : (s.setTvalid b).raced = s.raced := rfl
@[simp] theorem State.setTvalid_draws (s : State) (b : Bool) : (s.setTvalid b).draws = s.draws := rfl
@[simp] theorem State.setTvalid_reads (s : State) (b : Bool) : (s.setTvalid b).reads = s.reads := rfl
@[simp] theorem State.setTvalid_host (s : State) (b : Bool) : (s.setTvalid b).host = s.host := rfl
@[simp] theorem State.setTvalid_sched (s : State) (b : Bool) : (s.setTvalid b).sched = s.sched := rfl
@[simp] theorem State.setTvalid_trace (s : State) (b : Bool) : (s.setTvalid b).trace = s.trace := rfl

@[simp] theorem State.setCrcIn_cfg (s : State) (v : Word) : (s.setCrcIn v).cfg = s.cfg := rfl
@[simp] theorem State.setCrcIn_op (s : State) (v : Word) : (s.setCrcIn v).op = s.op := rfl
@[simp] theorem State.setCrcIn_tvalid (s : State) (v : Word) : (s.setCrcIn v).tvalid = s.tvalid := rfl
@[simp] theorem State.setCrcIn_err (s : State) (v : Word) : (s.setCrcIn v).err = s.err := rfl
@[simp] theorem State.setCrcIn_crcIn (s : State) (v : Word) : (s.setCrcIn v).crcIn = v := rfl
@[simp] theorem State.setCrcIn_addr (s : State) (v : Word) : (s.setCrcIn v).addr = s.addr := rfl
@[simp] theorem State.setCrcIn_len (s : State) (v : Word) : (s.setCrcIn v).len = s.len := rfl
@[simp] theorem State.setCrcIn_crcOut (s : State) (v : Word) : (s.setCrcIn v).crcOut = s.crcOut := rfl
@[simp] theorem State.setCrcIn_tidx (s : State) (v : Word) : (s.setCrcIn v).tidx = s.tidx := rfl
@[simp] theorem State.setCrcIn_tdata (s : State) (v : Word) : (s.setCrcIn v).tdata = s.tdata := rfl
@[simp] theorem State.setCrcIn_errAddr (s : State) (v : Word) : (s.setCrcIn v).errAddr = s.errAddr := rfl
@[simp] theorem State.setCrcIn_table (s : State) (v : Word) : (s.setCrcIn v).table = s.table := rfl
@[simp] theorem State.setCrcIn_acc (s : State) (v : Word) : (s.setCrcIn v).acc = s.acc := rfl
@[simp] theorem State.setCrcIn_cur (s : State) (v : Word) : (s.setCrcIn v).cur = s.cur := rfl
@[simp] theorem State.setCrcIn_rem (s : State) (v : Word) : (s.setCrcIn v).rem = s.rem := rfl
@[simp] theorem State.setCrcIn_mem (s : State) (v : Word) : (s.setCrcIn v).mem = s.mem := rfl
@[simp] theorem State.setCrcIn_busFaults (s : State) (v : Word) : (s.setCrcIn v).busFaults = s.busFaults := rfl
@[simp] theorem State.setCrcIn_raced (s : State) (v : Word) : (s.setCrcIn v).raced = s.raced := rfl
@[simp] theorem State.setCrcIn_draws (s : State) (v : Word) : (s.setCrcIn v).draws = s.draws := rfl
@[simp] theorem State.setCrcIn_reads (s : State) (v : Word) : (s.setCrcIn v).reads = s.reads := rfl
@[simp] theorem State.setCrcIn_host (s : State) (v : Word) : (s.setCrcIn v).host = s.host := rfl
@[simp] theorem State.setCrcIn_sched (s : State) (v : Word) : (s.setCrcIn v).sched = s.sched := rfl
@[simp] theorem State.setCrcIn_trace (s : State) (v : Word) : (s.setCrcIn v).trace = s.trace := rfl

@[simp] theorem State.setAddr_cfg (s : State) (v : Word) : (s.setAddr v).cfg = s.cfg := rfl
@[simp] theorem State.setAddr_op (s : State) (v : Word) : (s.setAddr v).op = s.op := rfl
@[simp] theorem State.setAddr_tvalid (s : State) (v : Word) : (s.setAddr v).tvalid = s.tvalid := rfl
@[simp] theorem State.setAddr_err (s : State) (v : Word) : (s.setAddr v).err = s.err := rfl
@[simp] theorem State.setAddr_crcIn (s : State) (v : Word) : (s.setAddr v).crcIn = s.crcIn := rfl
@[simp] theorem State.setAddr_addr (s : State) (v : Word) : (s.setAddr v).addr = v := rfl
@[simp] theorem State.setAddr_len (s : State) (v : Word) : (s.setAddr v).len = s.len := rfl
@[simp] theorem State.setAddr_crcOut (s : State) (v : Word) : (s.setAddr v).crcOut = s.crcOut := rfl
@[simp] theorem State.setAddr_tidx (s : State) (v : Word) : (s.setAddr v).tidx = s.tidx := rfl
@[simp] theorem State.setAddr_tdata (s : State) (v : Word) : (s.setAddr v).tdata = s.tdata := rfl
@[simp] theorem State.setAddr_errAddr (s : State) (v : Word) : (s.setAddr v).errAddr = s.errAddr := rfl
@[simp] theorem State.setAddr_table (s : State) (v : Word) : (s.setAddr v).table = s.table := rfl
@[simp] theorem State.setAddr_acc (s : State) (v : Word) : (s.setAddr v).acc = s.acc := rfl
@[simp] theorem State.setAddr_cur (s : State) (v : Word) : (s.setAddr v).cur = s.cur := rfl
@[simp] theorem State.setAddr_rem (s : State) (v : Word) : (s.setAddr v).rem = s.rem := rfl
@[simp] theorem State.setAddr_mem (s : State) (v : Word) : (s.setAddr v).mem = s.mem := rfl
@[simp] theorem State.setAddr_busFaults (s : State) (v : Word) : (s.setAddr v).busFaults = s.busFaults := rfl
@[simp] theorem State.setAddr_raced (s : State) (v : Word) : (s.setAddr v).raced = s.raced := rfl
@[simp] theorem State.setAddr_draws (s : State) (v : Word) : (s.setAddr v).draws = s.draws := rfl
@[simp] theorem State.setAddr_reads (s : State) (v : Word) : (s.setAddr v).reads = s.reads := rfl
@[simp] theorem State.setAddr_host (s : State) (v : Word) : (s.setAddr v).host = s.host := rfl
@[simp] theorem State.setAddr_sched (s : State) (v : Word) : (s.setAddr v).sched = s.sched := rfl
@[simp] theorem State.setAddr_trace (s : State) (v : Word) : (s.setAddr v).trace = s.trace := rfl

@[simp] theorem State.setLen_cfg (s : State) (v : Word) : (s.setLen v).cfg = s.cfg := rfl
@[simp] theorem State.setLen_op (s : State) (v : Word) : (s.setLen v).op = s.op := rfl
@[simp] theorem State.setLen_tvalid (s : State) (v : Word) : (s.setLen v).tvalid = s.tvalid := rfl
@[simp] theorem State.setLen_err (s : State) (v : Word) : (s.setLen v).err = s.err := rfl
@[simp] theorem State.setLen_crcIn (s : State) (v : Word) : (s.setLen v).crcIn = s.crcIn := rfl
@[simp] theorem State.setLen_addr (s : State) (v : Word) : (s.setLen v).addr = s.addr := rfl
@[simp] theorem State.setLen_len (s : State) (v : Word) : (s.setLen v).len = v := rfl
@[simp] theorem State.setLen_crcOut (s : State) (v : Word) : (s.setLen v).crcOut = s.crcOut := rfl
@[simp] theorem State.setLen_tidx (s : State) (v : Word) : (s.setLen v).tidx = s.tidx := rfl
@[simp] theorem State.setLen_tdata (s : State) (v : Word) : (s.setLen v).tdata = s.tdata := rfl
@[simp] theorem State.setLen_errAddr (s : State) (v : Word) : (s.setLen v).errAddr = s.errAddr := rfl
@[simp] theorem State.setLen_table (s : State) (v : Word) : (s.setLen v).table = s.table := rfl
@[simp] theorem State.setLen_acc (s : State) (v : Word) : (s.setLen v).acc = s.acc := rfl
@[simp] theorem State.setLen_cur (s : State) (v : Word) : (s.setLen v).cur = s.cur := rfl
@[simp] theorem State.setLen_rem (s : State) (v : Word) : (s.setLen v).rem = s.rem := rfl
@[simp] theorem State.setLen_mem (s : State) (v : Word) : (s.setLen v).mem = s.mem := rfl
@[simp] theorem State.setLen_busFaults (s : State) (v : Word) : (s.setLen v).busFaults = s.busFaults := rfl
@[simp] theorem State.setLen_raced (s : State) (v : Word) : (s.setLen v).raced = s.raced := rfl
@[simp] theorem State.setLen_draws (s : State) (v : Word) : (s.setLen v).draws = s.draws := rfl
@[simp] theorem State.setLen_reads (s : State) (v : Word) : (s.setLen v).reads = s.reads := rfl
@[simp] theorem State.setLen_host (s : State) (v : Word) : (s.setLen v).host = s.host := rfl
@[simp] theorem State.setLen_sched (s : State) (v : Word) : (s.setLen v).sched = s.sched := rfl
@[simp] theorem State.setLen_trace (s : State) (v : Word) : (s.setLen v).trace = s.trace := rfl

@[simp] theorem State.setCrcOut_cfg (s : State) (v : Word) : (s.setCrcOut v).cfg = s.cfg := rfl
@[simp] theorem State.setCrcOut_op (s : State) (v : Word) : (s.setCrcOut v).op = s.op := rfl
@[simp] theorem State.setCrcOut_tvalid (s : State) (v : Word) : (s.setCrcOut v).tvalid = s.tvalid := rfl
@[simp] theorem State.setCrcOut_err (s : State) (v : Word) : (s.setCrcOut v).err = s.err := rfl
@[simp] theorem State.setCrcOut_crcIn (s : State) (v : Word) : (s.setCrcOut v).crcIn = s.crcIn := rfl
@[simp] theorem State.setCrcOut_addr (s : State) (v : Word) : (s.setCrcOut v).addr = s.addr := rfl
@[simp] theorem State.setCrcOut_len (s : State) (v : Word) : (s.setCrcOut v).len = s.len := rfl
@[simp] theorem State.setCrcOut_crcOut (s : State) (v : Word) : (s.setCrcOut v).crcOut = v := rfl
@[simp] theorem State.setCrcOut_tidx (s : State) (v : Word) : (s.setCrcOut v).tidx = s.tidx := rfl
@[simp] theorem State.setCrcOut_tdata (s : State) (v : Word) : (s.setCrcOut v).tdata = s.tdata := rfl
@[simp] theorem State.setCrcOut_errAddr (s : State) (v : Word) : (s.setCrcOut v).errAddr = s.errAddr := rfl
@[simp] theorem State.setCrcOut_table (s : State) (v : Word) : (s.setCrcOut v).table = s.table := rfl
@[simp] theorem State.setCrcOut_acc (s : State) (v : Word) : (s.setCrcOut v).acc = s.acc := rfl
@[simp] theorem State.setCrcOut_cur (s : State) (v : Word) : (s.setCrcOut v).cur = s.cur := rfl
@[simp] theorem State.setCrcOut_rem (s : State) (v : Word) : (s.setCrcOut v).rem = s.rem := rfl
@[simp] theorem State.setCrcOut_mem (s : State) (v : Word) : (s.setCrcOut v).mem = s.mem := rfl
@[simp] theorem State.setCrcOut_busFaults (s : State) (v : Word) : (s.setCrcOut v).busFaults = s.busFaults := rfl
@[simp] theorem State.setCrcOut_raced (s : State) (v : Word) : (s.setCrcOut v).raced = s.raced := rfl
@[simp] theorem State.setCrcOut_draws (s : State) (v : Word) : (s.setCrcOut v).draws = s.draws := rfl
@[simp] theorem State.setCrcOut_reads (s : State) (v : Word) : (s.setCrcOut v).reads = s.reads := rfl
@[simp] theorem State.setCrcOut_host (s : State) (v : Word) : (s.setCrcOut v).host = s.host := rfl
@[simp] theorem State.setCrcOut_sched (s : State) (v : Word) : (s.setCrcOut v).sched = s.sched := rfl
@[simp] theorem State.setCrcOut_trace (s : State) (v : Word) : (s.setCrcOut v).trace = s.trace := rfl

@[simp] theorem State.setTidx_cfg (s : State) (v : Word) : (s.setTidx v).cfg = s.cfg := rfl
@[simp] theorem State.setTidx_op (s : State) (v : Word) : (s.setTidx v).op = s.op := rfl
@[simp] theorem State.setTidx_tvalid (s : State) (v : Word) : (s.setTidx v).tvalid = s.tvalid := rfl
@[simp] theorem State.setTidx_err (s : State) (v : Word) : (s.setTidx v).err = s.err := rfl
@[simp] theorem State.setTidx_crcIn (s : State) (v : Word) : (s.setTidx v).crcIn = s.crcIn := rfl
@[simp] theorem State.setTidx_addr (s : State) (v : Word) : (s.setTidx v).addr = s.addr := rfl
@[simp] theorem State.setTidx_len (s : State) (v : Word) : (s.setTidx v).len = s.len := rfl
@[simp] theorem State.setTidx_crcOut (s : State) (v : Word) : (s.setTidx v).crcOut = s.crcOut := rfl
@[simp] theorem State.setTidx_tidx (s : State) (v : Word) : (s.setTidx v).tidx = v := rfl
@[simp] theorem State.setTidx_tdata (s : State) (v : Word) : (s.setTidx v).tdata = s.tdata := rfl
@[simp] theorem State.setTidx_errAddr (s : State) (v : Word) : (s.setTidx v).errAddr = s.errAddr := rfl
@[simp] theorem State.setTidx_table (s : State) (v : Word) : (s.setTidx v).table = s.table := rfl
@[simp] theorem State.setTidx_acc (s : State) (v : Word) : (s.setTidx v).acc = s.acc := rfl
@[simp] theorem State.setTidx_cur (s : State) (v : Word) : (s.setTidx v).cur = s.cur := rfl
@[simp] theorem State.setTidx_rem (s : State) (v : Word) : (s.setTidx v).rem = s.rem := rfl
@[simp] theorem State.setTidx_mem (s : State) (v : Word) : (s.setTidx v).mem = s.mem := rfl
@[simp] theorem State.setTidx_busFaults (s : State) (v : Word) : (s.setTidx v).busFaults = s.busFaults := rfl
@[simp] theorem State.setTidx_raced (s : State) (v : Word) : (s.setTidx v).raced = s.raced := rfl
@[simp] theorem State.setTidx_draws (s : State) (v : Word) : (s.setTidx v).draws = s.draws := rfl
@[simp] theorem State.setTidx_reads (s : State) (v : Word) : (s.setTidx v).reads = s.reads := rfl
@[simp] theorem State.setTidx_host (s : State) (v : Word) : (s.setTidx v).host = s.host := rfl
@[simp] theorem State.setTidx_sched (s : State) (v : Word) : (s.setTidx v).sched = s.sched := rfl
@[simp] theorem State.setTidx_trace (s : State) (v : Word) : (s.setTidx v).trace = s.trace := rfl

@[simp] theorem State.setTdata_cfg (s : State) (v : Word) : (s.setTdata v).cfg = s.cfg := rfl
@[simp] theorem State.setTdata_op (s : State) (v : Word) : (s.setTdata v).op = s.op := rfl
@[simp] theorem State.setTdata_tvalid (s : State) (v : Word) : (s.setTdata v).tvalid = s.tvalid := rfl
@[simp] theorem State.setTdata_err (s : State) (v : Word) : (s.setTdata v).err = s.err := rfl
@[simp] theorem State.setTdata_crcIn (s : State) (v : Word) : (s.setTdata v).crcIn = s.crcIn := rfl
@[simp] theorem State.setTdata_addr (s : State) (v : Word) : (s.setTdata v).addr = s.addr := rfl
@[simp] theorem State.setTdata_len (s : State) (v : Word) : (s.setTdata v).len = s.len := rfl
@[simp] theorem State.setTdata_crcOut (s : State) (v : Word) : (s.setTdata v).crcOut = s.crcOut := rfl
@[simp] theorem State.setTdata_tidx (s : State) (v : Word) : (s.setTdata v).tidx = s.tidx := rfl
@[simp] theorem State.setTdata_tdata (s : State) (v : Word) : (s.setTdata v).tdata = v := rfl
@[simp] theorem State.setTdata_errAddr (s : State) (v : Word) : (s.setTdata v).errAddr = s.errAddr := rfl
@[simp] theorem State.setTdata_table (s : State) (v : Word) : (s.setTdata v).table = s.table := rfl
@[simp] theorem State.setTdata_acc (s : State) (v : Word) : (s.setTdata v).acc = s.acc := rfl
@[simp] theorem State.setTdata_cur (s : State) (v : Word) : (s.setTdata v).cur = s.cur := rfl
@[simp] theorem State.setTdata_rem (s : State) (v : Word) : (s.setTdata v).rem = s.rem := rfl
@[simp] theorem State.setTdata_mem (s : State) (v : Word) : (s.setTdata v).mem = s.mem := rfl
@[simp] theorem State.setTdata_busFaults (s : State) (v : Word) : (s.setTdata v).busFaults = s.busFaults := rfl
@[simp] theorem State.setTdata_raced (s : State) (v : Word) : (s.setTdata v).raced = s.raced := rfl
@[simp] theorem State.setTdata_draws (s : State) (v : Word) : (s.setTdata v).draws = s.draws := rfl
@[simp] theorem State.setTdata_reads (s : State) (v : Word) : (s.setTdata v).reads = s.reads := rfl
@[simp] theorem State.setTdata_host (s : State) (v : Word) : (s.setTdata v).host = s.host := rfl
@[simp] theorem State.setTdata_sched (s : State) (v : Word) : (s.setTdata v).sched = s.sched := rfl
@[simp] theorem State.setTdata_trace (s : State) (v : Word) : (s.setTdata v).trace = s.trace := rfl

@[simp] theorem State.setErrAddr_cfg (s : State) (v : Word) : (s.setErrAddr v).cfg = s.cfg := rfl
@[simp] theorem State.setErrAddr_op (s : State) (v : Word) : (s.setErrAddr v).op = s.op := rfl
@[simp] theorem State.setErrAddr_tvalid (s : State) (v : Word) : (s.setErrAddr v).tvalid = s.tvalid := rfl
@[simp] theorem State.setErrAddr_err (s : State) (v : Word) : (s.setErrAddr v).err = s.err := rfl
@[simp] theorem State.setErrAddr_crcIn (s : State) (v : Word) : (s.setErrAddr v).crcIn = s.crcIn := rfl
@[simp] theorem State.setErrAddr_addr (s : State) (v : Word) : (s.setErrAddr v).addr = s.addr := rfl
@[simp] theorem State.setErrAddr_len (s : State) (v : Word) : (s.setErrAddr v).len = s.len := rfl
@[simp] theorem State.setErrAddr_crcOut (s : State) (v : Word) : (s.setErrAddr v).crcOut = s.crcOut := rfl
@[simp] theorem State.setErrAddr_tidx (s : State) (v : Word) : (s.setErrAddr v).tidx = s.tidx := rfl
@[simp] theorem State.setErrAddr_tdata (s : State) (v : Word) : (s.setErrAddr v).tdata = s.tdata := rfl
@[simp] theorem State.setErrAddr_errAddr (s : State) (v : Word) : (s.setErrAddr v).errAddr = v := rfl
@[simp] theorem State.setErrAddr_table (s : State) (v : Word) : (s.setErrAddr v).table = s.table := rfl
@[simp] theorem State.setErrAddr_acc (s : State) (v : Word) : (s.setErrAddr v).acc = s.acc := rfl
@[simp] theorem State.setErrAddr_cur (s : State) (v : Word) : (s.setErrAddr v).cur = s.cur := rfl
@[simp] theorem State.setErrAddr_rem (s : State) (v : Word) : (s.setErrAddr v).rem = s.rem := rfl
@[simp] theorem State.setErrAddr_mem (s : State) (v : Word) : (s.setErrAddr v).mem = s.mem := rfl
@[simp] theorem State.setErrAddr_busFaults (s : State) (v : Word) : (s.setErrAddr v).busFaults = s.busFaults := rfl
@[simp] theorem State.setErrAddr_raced (s : State) (v : Word) : (s.setErrAddr v).raced = s.raced := rfl
@[simp] theorem State.setErrAddr_draws (s : State) (v : Word) : (s.setErrAddr v).draws = s.draws := rfl
@[simp] theorem State.setErrAddr_reads (s : State) (v : Word) : (s.setErrAddr v).reads = s.reads := rfl
@[simp] theorem State.setErrAddr_host (s : State) (v : Word) : (s.setErrAddr v).host = s.host := rfl
@[simp] theorem State.setErrAddr_sched (s : State) (v : Word) : (s.setErrAddr v).sched = s.sched := rfl
@[simp] theorem State.setErrAddr_trace (s : State) (v : Word) : (s.setErrAddr v).trace = s.trace := rfl

@[simp] theorem State.setTable_cfg (s : State) (t : Table) : (s.setTable t).cfg = s.cfg := rfl
@[simp] theorem State.setTable_op (s : State) (t : Table) : (s.setTable t).op = s.op := rfl
@[simp] theorem State.setTable_tvalid (s : State) (t : Table) : (s.setTable t).tvalid = s.tvalid := rfl
@[simp] theorem State.setTable_err (s : State) (t : Table) : (s.setTable t).err = s.err := rfl
@[simp] theorem State.setTable_crcIn (s : State) (t : Table) : (s.setTable t).crcIn = s.crcIn := rfl
@[simp] theorem State.setTable_addr (s : State) (t : Table) : (s.setTable t).addr = s.addr := rfl
@[simp] theorem State.setTable_len (s : State) (t : Table) : (s.setTable t).len = s.len := rfl
@[simp] theorem State.setTable_crcOut (s : State) (t : Table) : (s.setTable t).crcOut = s.crcOut := rfl
@[simp] theorem State.setTable_tidx (s : State) (t : Table) : (s.setTable t).tidx = s.tidx := rfl
@[simp] theorem State.setTable_tdata (s : State) (t : Table) : (s.setTable t).tdata = s.tdata := rfl
@[simp] theorem State.setTable_errAddr (s : State) (t : Table) : (s.setTable t).errAddr = s.errAddr := rfl
@[simp] theorem State.setTable_table (s : State) (t : Table) : (s.setTable t).table = t := rfl
@[simp] theorem State.setTable_acc (s : State) (t : Table) : (s.setTable t).acc = s.acc := rfl
@[simp] theorem State.setTable_cur (s : State) (t : Table) : (s.setTable t).cur = s.cur := rfl
@[simp] theorem State.setTable_rem (s : State) (t : Table) : (s.setTable t).rem = s.rem := rfl
@[simp] theorem State.setTable_mem (s : State) (t : Table) : (s.setTable t).mem = s.mem := rfl
@[simp] theorem State.setTable_busFaults (s : State) (t : Table) : (s.setTable t).busFaults = s.busFaults := rfl
@[simp] theorem State.setTable_raced (s : State) (t : Table) : (s.setTable t).raced = s.raced := rfl
@[simp] theorem State.setTable_draws (s : State) (t : Table) : (s.setTable t).draws = s.draws := rfl
@[simp] theorem State.setTable_reads (s : State) (t : Table) : (s.setTable t).reads = s.reads := rfl
@[simp] theorem State.setTable_host (s : State) (t : Table) : (s.setTable t).host = s.host := rfl
@[simp] theorem State.setTable_sched (s : State) (t : Table) : (s.setTable t).sched = s.sched := rfl
@[simp] theorem State.setTable_trace (s : State) (t : Table) : (s.setTable t).trace = s.trace := rfl

@[simp] theorem State.setWork_cfg (s : State) (x : Word) (c : Nat) (r : Nat) : (s.setWork x c r).cfg = s.cfg := rfl
@[simp] theorem State.setWork_op (s : State) (x : Word) (c : Nat) (r : Nat) : (s.setWork x c r).op = s.op := rfl
@[simp] theorem State.setWork_tvalid (s : State) (x : Word) (c : Nat) (r : Nat) : (s.setWork x c r).tvalid = s.tvalid := rfl
@[simp] theorem State.setWork_err (s : State) (x : Word) (c : Nat) (r : Nat) : (s.setWork x c r).err = s.err := rfl
@[simp] theorem State.setWork_crcIn (s : State) (x : Word) (c : Nat) (r : Nat) : (s.setWork x c r).crcIn = s.crcIn := rfl
@[simp] theorem State.setWork_addr (s : State) (x : Word) (c : Nat) (r : Nat) : (s.setWork x c r).addr = s.addr := rfl
@[simp] theorem State.setWork_len (s : State) (x : Word) (c : Nat) (r : Nat) : (s.setWork x c r).len = s.len := rfl
@[simp] theorem State.setWork_crcOut (s : State) (x : Word) (c : Nat) (r : Nat) : (s.setWork x c r).crcOut = s.crcOut := rfl
@[simp] theorem State.setWork_tidx (s : State) (x : Word) (c : Nat) (r : Nat) : (s.setWork x c r).tidx = s.tidx := rfl
@[simp] theorem State.setWork_tdata (s : State) (x : Word) (c : Nat) (r : Nat) : (s.setWork x c r).tdata = s.tdata := rfl
@[simp] theorem State.setWork_errAddr (s : State) (x : Word) (c : Nat) (r : Nat) : (s.setWork x c r).errAddr = s.errAddr := rfl
@[simp] theorem State.setWork_table (s : State) (x : Word) (c : Nat) (r : Nat) : (s.setWork x c r).table = s.table := rfl
@[simp] theorem State.setWork_acc (s : State) (x : Word) (c : Nat) (r : Nat) : (s.setWork x c r).acc = x := rfl
@[simp] theorem State.setWork_cur (s : State) (x : Word) (c : Nat) (r : Nat) : (s.setWork x c r).cur = c := rfl
@[simp] theorem State.setWork_rem (s : State) (x : Word) (c : Nat) (r : Nat) : (s.setWork x c r).rem = r := rfl
@[simp] theorem State.setWork_mem (s : State) (x : Word) (c : Nat) (r : Nat) : (s.setWork x c r).mem = s.mem := rfl
@[simp] theorem State.setWork_busFaults (s : State) (x : Word) (c : Nat) (r : Nat) : (s.setWork x c r).busFaults = s.busFaults := rfl
@[simp] theorem State.setWork_raced (s : State) (x : Word) (c : Nat) (r : Nat) : (s.setWork x c r).raced = s.raced := rfl
@[simp] theorem State.setWork_draws (s : State) (x : Word) (c : Nat) (r : Nat) : (s.setWork x c r).draws = s.draws := rfl
@[simp] theorem State.setWork_reads (s : State) (x : Word) (c : Nat) (r : Nat) : (s.setWork x c r).reads = s.reads := rfl
@[simp] theorem State.setWork_host (s : State) (x : Word) (c : Nat) (r : Nat) : (s.setWork x c r).host = s.host := rfl
@[simp] theorem State.setWork_sched (s : State) (x : Word) (c : Nat) (r : Nat) : (s.setWork x c r).sched = s.sched := rfl
@[simp] theorem State.setWork_trace (s : State) (x : Word) (c : Nat) (r : Nat) : (s.setWork x c r).trace = s.trace := rfl

@[simp] theorem State.setMem_cfg (s : State) (m : Memory) : (s.setMem m).cfg = s.cfg := rfl
@[simp] theorem State.setMem_op (s : State) (m : Memory) : (s.setMem m).op = s.op := rfl
@[simp] theorem State.setMem_tvalid (s : State) (m : Memory) : (s.setMem m).tvalid = s.tvalid := rfl
@[simp] theorem State.setMem_err (s : State) (m : Memory) : (s.setMem m).err = s.err := rfl
@[simp] theorem State.setMem_crcIn (s : State) (m : Memory) : (s.setMem m).crcIn = s.crcIn := rfl
@[simp] theorem State.setMem_addr (s : State) (m : Memory) : (s.setMem m).addr = s.addr := rfl
@[simp] theorem State.setMem_len (s : State) (m : Memory) : (s.setMem m).len = s.len := rfl
@[simp] theorem State.setMem_crcOut (s : State) (m : Memory) : (s.setMem m).crcOut = s.crcOut := rfl
@[simp] theorem State.setMem_tidx (s : State) (m : Memory) : (s.setMem m).tidx = s.tidx := rfl
@[simp] theorem State.setMem_tdata (s : State) (m : Memory) : (s.setMem m).tdata = s.tdata := rfl
@[simp] theorem State.setMem_errAddr (s : State) (m : Memory) : (s.setMem m).errAddr = s.errAddr := rfl
@[simp] theorem State.setMem_table (s : State) (m : Memory) : (s.setMem m).table = s.table := rfl
@[simp] theorem State.setMem_acc (s : State) (m : Memory) : (s.setMem m).acc = s.acc := rfl
@[simp] theorem State.setMem_cur (s : State) (m : Memory) : (s.setMem m).cur = s.cur := rfl
@[simp] theorem State.setMem_rem (s : State) (m : Memory) : (s.setMem m).rem = s.rem := rfl
@[simp] theorem State.setMem_mem (s : State) (m : Memory) : (s.setMem m).mem = m := rfl
@[simp] theorem State.setMem_busFaults (s : State) (m : Memory) : (s.setMem m).busFaults = s.busFaults := rfl
@[simp] theorem State.setMem_raced (s : State) (m : Memory) : (s.setMem m).raced = s.raced := rfl
@[simp] theorem State.setMem_draws (s : State) (m : Memory) : (s.setMem m).draws = s.draws := rfl
@[simp] theorem State.setMem_reads (s : State) (m : Memory) : (s.setMem m).reads = s.reads := rfl
@[simp] theorem State.setMem_host (s : State) (m : Memory) : (s.setMem m).host = s.host := rfl
@[simp] theorem State.setMem_sched (s : State) (m : Memory) : (s.setMem m).sched = s.sched := rfl
@[simp] theorem State.setMem_trace (s : State) (m : Memory) : (s.setMem m).trace = s.trace := rfl

@[simp] theorem State.setBus_cfg (s : State) (rs : List FaultRegion) : (s.setBus rs).cfg = s.cfg := rfl
@[simp] theorem State.setBus_op (s : State) (rs : List FaultRegion) : (s.setBus rs).op = s.op := rfl
@[simp] theorem State.setBus_tvalid (s : State) (rs : List FaultRegion) : (s.setBus rs).tvalid = s.tvalid := rfl
@[simp] theorem State.setBus_err (s : State) (rs : List FaultRegion) : (s.setBus rs).err = s.err := rfl
@[simp] theorem State.setBus_crcIn (s : State) (rs : List FaultRegion) : (s.setBus rs).crcIn = s.crcIn := rfl
@[simp] theorem State.setBus_addr (s : State) (rs : List FaultRegion) : (s.setBus rs).addr = s.addr := rfl
@[simp] theorem State.setBus_len (s : State) (rs : List FaultRegion) : (s.setBus rs).len = s.len := rfl
@[simp] theorem State.setBus_crcOut (s : State) (rs : List FaultRegion) : (s.setBus rs).crcOut = s.crcOut := rfl
@[simp] theorem State.setBus_tidx (s : State) (rs : List FaultRegion) : (s.setBus rs).tidx = s.tidx := rfl
@[simp] theorem State.setBus_tdata (s : State) (rs : List FaultRegion) : (s.setBus rs).tdata = s.tdata := rfl
@[simp] theorem State.setBus_errAddr (s : State) (rs : List FaultRegion) : (s.setBus rs).errAddr = s.errAddr := rfl
@[simp] theorem State.setBus_table (s : State) (rs : List FaultRegion) : (s.setBus rs).table = s.table := rfl
@[simp] theorem State.setBus_acc (s : State) (rs : List FaultRegion) : (s.setBus rs).acc = s.acc := rfl
@[simp] theorem State.setBus_cur (s : State) (rs : List FaultRegion) : (s.setBus rs).cur = s.cur := rfl
@[simp] theorem State.setBus_rem (s : State) (rs : List FaultRegion) : (s.setBus rs).rem = s.rem := rfl
@[simp] theorem State.setBus_mem (s : State) (rs : List FaultRegion) : (s.setBus rs).mem = s.mem := rfl
@[simp] theorem State.setBus_busFaults (s : State) (rs : List FaultRegion) : (s.setBus rs).busFaults = rs := rfl
@[simp] theorem State.setBus_raced (s : State) (rs : List FaultRegion) : (s.setBus rs).raced = s.raced := rfl
@[simp] theorem State.setBus_draws (s : State) (rs : List FaultRegion) : (s.setBus rs).draws = s.draws := rfl
@[simp] theorem State.setBus_reads (s : State) (rs : List FaultRegion) : (s.setBus rs).reads = s.reads := rfl
@[simp] theorem State.setBus_host (s : State) (rs : List FaultRegion) : (s.setBus rs).host = s.host := rfl
@[simp] theorem State.setBus_sched (s : State) (rs : List FaultRegion) : (s.setBus rs).sched = s.sched := rfl
@[simp] theorem State.setBus_trace (s : State) (rs : List FaultRegion) : (s.setBus rs).trace = s.trace := rfl

@[simp] theorem State.setRaced_cfg (s : State) (cs : List Host.Cell) : (s.setRaced cs).cfg = s.cfg := rfl
@[simp] theorem State.setRaced_op (s : State) (cs : List Host.Cell) : (s.setRaced cs).op = s.op := rfl
@[simp] theorem State.setRaced_tvalid (s : State) (cs : List Host.Cell) : (s.setRaced cs).tvalid = s.tvalid := rfl
@[simp] theorem State.setRaced_err (s : State) (cs : List Host.Cell) : (s.setRaced cs).err = s.err := rfl
@[simp] theorem State.setRaced_crcIn (s : State) (cs : List Host.Cell) : (s.setRaced cs).crcIn = s.crcIn := rfl
@[simp] theorem State.setRaced_addr (s : State) (cs : List Host.Cell) : (s.setRaced cs).addr = s.addr := rfl
@[simp] theorem State.setRaced_len (s : State) (cs : List Host.Cell) : (s.setRaced cs).len = s.len := rfl
@[simp] theorem State.setRaced_crcOut (s : State) (cs : List Host.Cell) : (s.setRaced cs).crcOut = s.crcOut := rfl
@[simp] theorem State.setRaced_tidx (s : State) (cs : List Host.Cell) : (s.setRaced cs).tidx = s.tidx := rfl
@[simp] theorem State.setRaced_tdata (s : State) (cs : List Host.Cell) : (s.setRaced cs).tdata = s.tdata := rfl
@[simp] theorem State.setRaced_errAddr (s : State) (cs : List Host.Cell) : (s.setRaced cs).errAddr = s.errAddr := rfl
@[simp] theorem State.setRaced_table (s : State) (cs : List Host.Cell) : (s.setRaced cs).table = s.table := rfl
@[simp] theorem State.setRaced_acc (s : State) (cs : List Host.Cell) : (s.setRaced cs).acc = s.acc := rfl
@[simp] theorem State.setRaced_cur (s : State) (cs : List Host.Cell) : (s.setRaced cs).cur = s.cur := rfl
@[simp] theorem State.setRaced_rem (s : State) (cs : List Host.Cell) : (s.setRaced cs).rem = s.rem := rfl
@[simp] theorem State.setRaced_mem (s : State) (cs : List Host.Cell) : (s.setRaced cs).mem = s.mem := rfl
@[simp] theorem State.setRaced_busFaults (s : State) (cs : List Host.Cell) : (s.setRaced cs).busFaults = s.busFaults := rfl
@[simp] theorem State.setRaced_raced (s : State) (cs : List Host.Cell) : (s.setRaced cs).raced = cs := rfl
@[simp] theorem State.setRaced_draws (s : State) (cs : List Host.Cell) : (s.setRaced cs).draws = s.draws := rfl
@[simp] theorem State.setRaced_reads (s : State) (cs : List Host.Cell) : (s.setRaced cs).reads = s.reads := rfl
@[simp] theorem State.setRaced_host (s : State) (cs : List Host.Cell) : (s.setRaced cs).host = s.host := rfl
@[simp] theorem State.setRaced_sched (s : State) (cs : List Host.Cell) : (s.setRaced cs).sched = s.sched := rfl
@[simp] theorem State.setRaced_trace (s : State) (cs : List Host.Cell) : (s.setRaced cs).trace = s.trace := rfl

@[simp] theorem State.setDraws_cfg (s : State) (n : Nat) : (s.setDraws n).cfg = s.cfg := rfl
@[simp] theorem State.setDraws_op (s : State) (n : Nat) : (s.setDraws n).op = s.op := rfl
@[simp] theorem State.setDraws_tvalid (s : State) (n : Nat) : (s.setDraws n).tvalid = s.tvalid := rfl
@[simp] theorem State.setDraws_err (s : State) (n : Nat) : (s.setDraws n).err = s.err := rfl
@[simp] theorem State.setDraws_crcIn (s : State) (n : Nat) : (s.setDraws n).crcIn = s.crcIn := rfl
@[simp] theorem State.setDraws_addr (s : State) (n : Nat) : (s.setDraws n).addr = s.addr := rfl
@[simp] theorem State.setDraws_len (s : State) (n : Nat) : (s.setDraws n).len = s.len := rfl
@[simp] theorem State.setDraws_crcOut (s : State) (n : Nat) : (s.setDraws n).crcOut = s.crcOut := rfl
@[simp] theorem State.setDraws_tidx (s : State) (n : Nat) : (s.setDraws n).tidx = s.tidx := rfl
@[simp] theorem State.setDraws_tdata (s : State) (n : Nat) : (s.setDraws n).tdata = s.tdata := rfl
@[simp] theorem State.setDraws_errAddr (s : State) (n : Nat) : (s.setDraws n).errAddr = s.errAddr := rfl
@[simp] theorem State.setDraws_table (s : State) (n : Nat) : (s.setDraws n).table = s.table := rfl
@[simp] theorem State.setDraws_acc (s : State) (n : Nat) : (s.setDraws n).acc = s.acc := rfl
@[simp] theorem State.setDraws_cur (s : State) (n : Nat) : (s.setDraws n).cur = s.cur := rfl
@[simp] theorem State.setDraws_rem (s : State) (n : Nat) : (s.setDraws n).rem = s.rem := rfl
@[simp] theorem State.setDraws_mem (s : State) (n : Nat) : (s.setDraws n).mem = s.mem := rfl
@[simp] theorem State.setDraws_busFaults (s : State) (n : Nat) : (s.setDraws n).busFaults = s.busFaults := rfl
@[simp] theorem State.setDraws_raced (s : State) (n : Nat) : (s.setDraws n).raced = s.raced := rfl
@[simp] theorem State.setDraws_draws (s : State) (n : Nat) : (s.setDraws n).draws = n := rfl
@[simp] theorem State.setDraws_reads (s : State) (n : Nat) : (s.setDraws n).reads = s.reads := rfl
@[simp] theorem State.setDraws_host (s : State) (n : Nat) : (s.setDraws n).host = s.host := rfl
@[simp] theorem State.setDraws_sched (s : State) (n : Nat) : (s.setDraws n).sched = s.sched := rfl
@[simp] theorem State.setDraws_trace (s : State) (n : Nat) : (s.setDraws n).trace = s.trace := rfl

@[simp] theorem State.setReads_cfg (s : State) (rs : List ReadReq) : (s.setReads rs).cfg = s.cfg := rfl
@[simp] theorem State.setReads_op (s : State) (rs : List ReadReq) : (s.setReads rs).op = s.op := rfl
@[simp] theorem State.setReads_tvalid (s : State) (rs : List ReadReq) : (s.setReads rs).tvalid = s.tvalid := rfl
@[simp] theorem State.setReads_err (s : State) (rs : List ReadReq) : (s.setReads rs).err = s.err := rfl
@[simp] theorem State.setReads_crcIn (s : State) (rs : List ReadReq) : (s.setReads rs).crcIn = s.crcIn := rfl
@[simp] theorem State.setReads_addr (s : State) (rs : List ReadReq) : (s.setReads rs).addr = s.addr := rfl
@[simp] theorem State.setReads_len (s : State) (rs : List ReadReq) : (s.setReads rs).len = s.len := rfl
@[simp] theorem State.setReads_crcOut (s : State) (rs : List ReadReq) : (s.setReads rs).crcOut = s.crcOut := rfl
@[simp] theorem State.setReads_tidx (s : State) (rs : List ReadReq) : (s.setReads rs).tidx = s.tidx := rfl
@[simp] theorem State.setReads_tdata (s : State) (rs : List ReadReq) : (s.setReads rs).tdata = s.tdata := rfl
@[simp] theorem State.setReads_errAddr (s : State) (rs : List ReadReq) : (s.setReads rs).errAddr = s.errAddr := rfl
@[simp] theorem State.setReads_table (s : State) (rs : List ReadReq) : (s.setReads rs).table = s.table := rfl
@[simp] theorem State.setReads_acc (s : State) (rs : List ReadReq) : (s.setReads rs).acc = s.acc := rfl
@[simp] theorem State.setReads_cur (s : State) (rs : List ReadReq) : (s.setReads rs).cur = s.cur := rfl
@[simp] theorem State.setReads_rem (s : State) (rs : List ReadReq) : (s.setReads rs).rem = s.rem := rfl
@[simp] theorem State.setReads_mem (s : State) (rs : List ReadReq) : (s.setReads rs).mem = s.mem := rfl
@[simp] theorem State.setReads_busFaults (s : State) (rs : List ReadReq) : (s.setReads rs).busFaults = s.busFaults := rfl
@[simp] theorem State.setReads_raced (s : State) (rs : List ReadReq) : (s.setReads rs).raced = s.raced := rfl
@[simp] theorem State.setReads_draws (s : State) (rs : List ReadReq) : (s.setReads rs).draws = s.draws := rfl
@[simp] theorem State.setReads_reads (s : State) (rs : List ReadReq) : (s.setReads rs).reads = rs := rfl
@[simp] theorem State.setReads_host (s : State) (rs : List ReadReq) : (s.setReads rs).host = s.host := rfl
@[simp] theorem State.setReads_sched (s : State) (rs : List ReadReq) : (s.setReads rs).sched = s.sched := rfl
@[simp] theorem State.setReads_trace (s : State) (rs : List ReadReq) : (s.setReads rs).trace = s.trace := rfl

@[simp] theorem State.setHost_cfg (s : State) (p : List HostOp) : (s.setHost p).cfg = s.cfg := rfl
@[simp] theorem State.setHost_op (s : State) (p : List HostOp) : (s.setHost p).op = s.op := rfl
@[simp] theorem State.setHost_tvalid (s : State) (p : List HostOp) : (s.setHost p).tvalid = s.tvalid := rfl
@[simp] theorem State.setHost_err (s : State) (p : List HostOp) : (s.setHost p).err = s.err := rfl
@[simp] theorem State.setHost_crcIn (s : State) (p : List HostOp) : (s.setHost p).crcIn = s.crcIn := rfl
@[simp] theorem State.setHost_addr (s : State) (p : List HostOp) : (s.setHost p).addr = s.addr := rfl
@[simp] theorem State.setHost_len (s : State) (p : List HostOp) : (s.setHost p).len = s.len := rfl
@[simp] theorem State.setHost_crcOut (s : State) (p : List HostOp) : (s.setHost p).crcOut = s.crcOut := rfl
@[simp] theorem State.setHost_tidx (s : State) (p : List HostOp) : (s.setHost p).tidx = s.tidx := rfl
@[simp] theorem State.setHost_tdata (s : State) (p : List HostOp) : (s.setHost p).tdata = s.tdata := rfl
@[simp] theorem State.setHost_errAddr (s : State) (p : List HostOp) : (s.setHost p).errAddr = s.errAddr := rfl
@[simp] theorem State.setHost_table (s : State) (p : List HostOp) : (s.setHost p).table = s.table := rfl
@[simp] theorem State.setHost_acc (s : State) (p : List HostOp) : (s.setHost p).acc = s.acc := rfl
@[simp] theorem State.setHost_cur (s : State) (p : List HostOp) : (s.setHost p).cur = s.cur := rfl
@[simp] theorem State.setHost_rem (s : State) (p : List HostOp) : (s.setHost p).rem = s.rem := rfl
@[simp] theorem State.setHost_mem (s : State) (p : List HostOp) : (s.setHost p).mem = s.mem := rfl
@[simp] theorem State.setHost_busFaults (s : State) (p : List HostOp) : (s.setHost p).busFaults = s.busFaults := rfl
@[simp] theorem State.setHost_raced (s : State) (p : List HostOp) : (s.setHost p).raced = s.raced := rfl
@[simp] theorem State.setHost_draws (s : State) (p : List HostOp) : (s.setHost p).draws = s.draws := rfl
@[simp] theorem State.setHost_reads (s : State) (p : List HostOp) : (s.setHost p).reads = s.reads := rfl
@[simp] theorem State.setHost_host (s : State) (p : List HostOp) : (s.setHost p).host = p := rfl
@[simp] theorem State.setHost_sched (s : State) (p : List HostOp) : (s.setHost p).sched = s.sched := rfl
@[simp] theorem State.setHost_trace (s : State) (p : List HostOp) : (s.setHost p).trace = s.trace := rfl

@[simp] theorem State.setSched_cfg (s : State) (ts : List Turn) : (s.setSched ts).cfg = s.cfg := rfl
@[simp] theorem State.setSched_op (s : State) (ts : List Turn) : (s.setSched ts).op = s.op := rfl
@[simp] theorem State.setSched_tvalid (s : State) (ts : List Turn) : (s.setSched ts).tvalid = s.tvalid := rfl
@[simp] theorem State.setSched_err (s : State) (ts : List Turn) : (s.setSched ts).err = s.err := rfl
@[simp] theorem State.setSched_crcIn (s : State) (ts : List Turn) : (s.setSched ts).crcIn = s.crcIn := rfl
@[simp] theorem State.setSched_addr (s : State) (ts : List Turn) : (s.setSched ts).addr = s.addr := rfl
@[simp] theorem State.setSched_len (s : State) (ts : List Turn) : (s.setSched ts).len = s.len := rfl
@[simp] theorem State.setSched_crcOut (s : State) (ts : List Turn) : (s.setSched ts).crcOut = s.crcOut := rfl
@[simp] theorem State.setSched_tidx (s : State) (ts : List Turn) : (s.setSched ts).tidx = s.tidx := rfl
@[simp] theorem State.setSched_tdata (s : State) (ts : List Turn) : (s.setSched ts).tdata = s.tdata := rfl
@[simp] theorem State.setSched_errAddr (s : State) (ts : List Turn) : (s.setSched ts).errAddr = s.errAddr := rfl
@[simp] theorem State.setSched_table (s : State) (ts : List Turn) : (s.setSched ts).table = s.table := rfl
@[simp] theorem State.setSched_acc (s : State) (ts : List Turn) : (s.setSched ts).acc = s.acc := rfl
@[simp] theorem State.setSched_cur (s : State) (ts : List Turn) : (s.setSched ts).cur = s.cur := rfl
@[simp] theorem State.setSched_rem (s : State) (ts : List Turn) : (s.setSched ts).rem = s.rem := rfl
@[simp] theorem State.setSched_mem (s : State) (ts : List Turn) : (s.setSched ts).mem = s.mem := rfl
@[simp] theorem State.setSched_busFaults (s : State) (ts : List Turn) : (s.setSched ts).busFaults = s.busFaults := rfl
@[simp] theorem State.setSched_raced (s : State) (ts : List Turn) : (s.setSched ts).raced = s.raced := rfl
@[simp] theorem State.setSched_draws (s : State) (ts : List Turn) : (s.setSched ts).draws = s.draws := rfl
@[simp] theorem State.setSched_reads (s : State) (ts : List Turn) : (s.setSched ts).reads = s.reads := rfl
@[simp] theorem State.setSched_host (s : State) (ts : List Turn) : (s.setSched ts).host = s.host := rfl
@[simp] theorem State.setSched_sched (s : State) (ts : List Turn) : (s.setSched ts).sched = ts := rfl
@[simp] theorem State.setSched_trace (s : State) (ts : List Turn) : (s.setSched ts).trace = s.trace := rfl

@[simp] theorem State.setTrace_cfg (s : State) (tr : List (Nat × Word)) : (s.setTrace tr).cfg = s.cfg := rfl
@[simp] theorem State.setTrace_op (s : State) (tr : List (Nat × Word)) : (s.setTrace tr).op = s.op := rfl
@[simp] theorem State.setTrace_tvalid (s : State) (tr : List (Nat × Word)) : (s.setTrace tr).tvalid = s.tvalid := rfl
@[simp] theorem State.setTrace_err (s : State) (tr : List (Nat × Word)) : (s.setTrace tr).err = s.err := rfl
@[simp] theorem State.setTrace_crcIn (s : State) (tr : List (Nat × Word)) : (s.setTrace tr).crcIn = s.crcIn := rfl
@[simp] theorem State.setTrace_addr (s : State) (tr : List (Nat × Word)) : (s.setTrace tr).addr = s.addr := rfl
@[simp] theorem State.setTrace_len (s : State) (tr : List (Nat × Word)) : (s.setTrace tr).len = s.len := rfl
@[simp] theorem State.setTrace_crcOut (s : State) (tr : List (Nat × Word)) : (s.setTrace tr).crcOut = s.crcOut := rfl
@[simp] theorem State.setTrace_tidx (s : State) (tr : List (Nat × Word)) : (s.setTrace tr).tidx = s.tidx := rfl
@[simp] theorem State.setTrace_tdata (s : State) (tr : List (Nat × Word)) : (s.setTrace tr).tdata = s.tdata := rfl
@[simp] theorem State.setTrace_errAddr (s : State) (tr : List (Nat × Word)) : (s.setTrace tr).errAddr = s.errAddr := rfl
@[simp] theorem State.setTrace_table (s : State) (tr : List (Nat × Word)) : (s.setTrace tr).table = s.table := rfl
@[simp] theorem State.setTrace_acc (s : State) (tr : List (Nat × Word)) : (s.setTrace tr).acc = s.acc := rfl
@[simp] theorem State.setTrace_cur (s : State) (tr : List (Nat × Word)) : (s.setTrace tr).cur = s.cur := rfl
@[simp] theorem State.setTrace_rem (s : State) (tr : List (Nat × Word)) : (s.setTrace tr).rem = s.rem := rfl
@[simp] theorem State.setTrace_mem (s : State) (tr : List (Nat × Word)) : (s.setTrace tr).mem = s.mem := rfl
@[simp] theorem State.setTrace_busFaults (s : State) (tr : List (Nat × Word)) : (s.setTrace tr).busFaults = s.busFaults := rfl
@[simp] theorem State.setTrace_raced (s : State) (tr : List (Nat × Word)) : (s.setTrace tr).raced = s.raced := rfl
@[simp] theorem State.setTrace_draws (s : State) (tr : List (Nat × Word)) : (s.setTrace tr).draws = s.draws := rfl
@[simp] theorem State.setTrace_reads (s : State) (tr : List (Nat × Word)) : (s.setTrace tr).reads = s.reads := rfl
@[simp] theorem State.setTrace_host (s : State) (tr : List (Nat × Word)) : (s.setTrace tr).host = s.host := rfl
@[simp] theorem State.setTrace_sched (s : State) (tr : List (Nat × Word)) : (s.setTrace tr).sched = s.sched := rfl
@[simp] theorem State.setTrace_trace (s : State) (tr : List (Nat × Word)) : (s.setTrace tr).trace = tr := rfl

end Sys2Proof.Machine
end

