-- ==== Sys2Proof/Laws/Ops.lean ====
section
/-! SUPPORT. What each shared operation does, once: the fields it writes, and the cases it has. -/

namespace Sys2Proof.Machine

theorem bank_get_ext {α : Type} {n : Nat} {a b : Bank α n} (h : ∀ i, a.get i = b.get i) : a = b := by
  obtain ⟨l, hl⟩ := a
  obtain ⟨m, hm⟩ := b
  have : l = m := List.ext_getElem (by omega) fun i h1 h2 => h ⟨i, by omega⟩
  subst this
  rfl

@[simp] theorem tabulate_get {α : Type} (n : Nat) (f : Fin n → α) (i : Fin n) : (tabulate n f).get i = f i := by
  simp [tabulate, Bank.get]

theorem lookup_storedTable (c : Config) (k : Fin 8) (n : Byte) :
    lookup (storedTable c) k n = orient c.endian (logical c k.val n) := by
  simp only [lookup, storedTable, tabulate_get]

theorem logicalRow0_configOf (e : Endian) (f : Word → List Byte → Word) (w : Nat) (n : Byte) :
    logicalRow0 (configOf e f w) n = f 0 [n] := by
  simp only [logicalRow0, configOf, tabulate_get]

theorem accept_eq (s : State) : accept s = { s with err := 0 } := rfl

theorem reject_eq (c : ErrCode) (s : State) : reject c s = { s with err := c.code } := rfl

theorem freeWork_eq (s : State) :
    freeWork s = { s with
      acc := Config.freeAcc s.draws
      cur := (Config.freeCur (memSize s) s.draws).val
      rem := (Config.freeRem s.draws).toNat
      draws := s.draws + 1 } := rfl

theorem abort_eq (a : Nat) (s : State) :
    abort a s = { s with
      err := 5
      errAddr := BitVec.ofNat 64 a
      op := .idle
      acc := Config.freeAcc s.draws
      cur := (Config.freeCur (memSize s) s.draws).val
      rem := (Config.freeRem s.draws).toNat
      draws := s.draws + 1 } := rfl

theorem resetEvent_eq (s : State) :
    resetEvent s = { s with
      op := .idle
      tvalid := false
      err := 0
      crcIn := 0
      addr := 0
      len := 0
      tidx := 0
      crcOut := 0
      tdata := 0
      errAddr := 0
      table := tabulate 8 fun k => tabulate 256 fun n => Config.freeEntry s.draws k n
      acc := Config.freeAcc (s.draws + 1)
      cur := (Config.freeCur (memSize s) (s.draws + 1)).val
      rem := (Config.freeRem (s.draws + 1)).toNat
      draws := s.draws + 2 } := rfl

theorem noteRead_eq (s : State) (a : Nat) (sz : ReadSize) :
    noteRead s a sz = { s with reads := ⟨a, sz⟩ :: s.reads, draws := s.draws + sz.bytes } := rfl

theorem acceptBuild_eq (s : State) : acceptBuild s = { s with err := 0, tvalid := false, op := .building } := rfl

theorem buildDone_eq (s : State) :
    buildDone s = { s with table := storedTable s.cfg, tvalid := true, op := .idle } := rfl

theorem acceptCompute_eq (s : State) :
    acceptCompute s = { s with
      err := 0
      acc := orient s.cfg.endian s.crcIn
      cur := s.addr.toNat
      rem := s.len.toNat
      raced := []
      op := .computing } := rfl

theorem finish_eq (s : State) :
    finish s = { s with
      crcOut := orient s.cfg.endian s.acc
      op := .idle
      acc := Config.freeAcc s.draws
      cur := (Config.freeCur (memSize s) s.draws).val
      rem := (Config.freeRem s.draws).toNat
      draws := s.draws + 1 } := rfl

theorem whenIdle_idle {s : State} (k : State → Out) (h : s.op = .idle) : whenIdle s k = k s := by
  simp [whenIdle, h]

theorem whenIdle_busy {s : State} (k : State → Out) (h : s.op ≠ .idle) : whenIdle s k = .next (reject .busy s) := by
  cases ho : s.op <;> simp_all [whenIdle]

theorem whenTable_valid {s : State} (k : State → Out) (h : s.tvalid = true) : whenTable s k = k s := by
  simp [whenTable, h]

theorem whenTable_invalid {s : State} (k : State → Out) (h : s.tvalid = false) :
    whenTable s k = .next (reject .noTable s) := by
  simp [whenTable, h]

/-- A host store inside MEM. -/
theorem hostStore_inside {a : Nat} {b : Byte} {s : State} (h : a < memSize s) :
    hostStore a b s = .next { s with
      mem := s.mem.write a b
      raced := if s.op = .computing then (a, s.mem.read a) :: s.raced else s.raced } := by
  simp only [hostStore, if_pos h]
  cases ho : s.op <;> simp [State.setMem, State.setRaced, ho]

theorem hostStore_outside {a : Nat} {b : Byte} {s : State} (h : ¬ a < memSize s) :
    hostStore a b s = .fault (.storeOutsideMem a) := by
  simp [hostStore, h]

/-- A buffer read that MEM answers with fault. -/
theorem bufferStep_fault {sz : ReadSize} {s : State} (h : s.cur + sz.bytes ≤ memSize s)
    (hf : busFaulted s.busFaults s.cur sz = true) :
    bufferStep sz s = .next (abort s.cur (noteRead s s.cur sz)) := by
  simp [bufferStep, h, memRead, hf]

/-- A buffer read that MEM answers with data. -/
theorem bufferStep_data {sz : ReadSize} {s : State} (h : s.cur + sz.bytes ≤ memSize s)
    (hf : busFaulted s.busFaults s.cur sz = false) :
    bufferStep sz s = .next { s with
      acc := combine sz s.cfg.endian s.table s.acc
        ((List.range sz.bytes).map fun i => raceRead s (s.cur + i) (s.draws + i))
      cur := s.cur + sz.bytes
      rem := s.rem - sz.bytes
      reads := ⟨s.cur, sz⟩ :: s.reads
      draws := s.draws + sz.bytes } := by
  simp [bufferStep, h, memRead, hf]
  rfl

theorem bufferStep_outside {sz : ReadSize} {s : State} (h : ¬ s.cur + sz.bytes ≤ memSize s) :
    bufferStep sz s = .fault (.readOutsideMem s.cur) := by
  simp [bufferStep, h]

/-- What a buffer read comes to, with every case. -/
theorem bufferStep_cases (sz : ReadSize) (s : State) :
    (¬ s.cur + sz.bytes ≤ memSize s ∧ bufferStep sz s = .fault (.readOutsideMem s.cur)) ∨
    (s.cur + sz.bytes ≤ memSize s ∧ busFaulted s.busFaults s.cur sz = true ∧
      bufferStep sz s = .next (abort s.cur (noteRead s s.cur sz))) ∨
    (s.cur + sz.bytes ≤ memSize s ∧ busFaulted s.busFaults s.cur sz = false ∧
      bufferStep sz s = .next { s with
        acc := combine sz s.cfg.endian s.table s.acc
          ((List.range sz.bytes).map fun i => raceRead s (s.cur + i) (s.draws + i))
        cur := s.cur + sz.bytes
        rem := s.rem - sz.bytes
        reads := ⟨s.cur, sz⟩ :: s.reads
        draws := s.draws + sz.bytes }) := by
  by_cases h : s.cur + sz.bytes ≤ memSize s
  · cases hf : busFaulted s.busFaults s.cur sz
    · exact .inr (.inr ⟨h, rfl, bufferStep_data h hf⟩)
    · exact .inr (.inl ⟨h, rfl, bufferStep_fault h hf⟩)
  · exact .inl ⟨h, bufferStep_outside h⟩

/-- With no host store to it since acceptance, a byte reads as MEM holds it. -/
theorem raceRead_quiet {s : State} (h : s.raced = []) (a d : Nat) : raceRead s a d = s.mem.read a := by
  simp [raceRead, racedValues, h]

end Sys2Proof.Machine
end

