-- ==== Sys2Proof/Laws/Fields.lean ====
section
/-! SUPPORT. One lemma per field for each shared operation that writes several fields, each true by rfl. -/

namespace Sys2Proof.Machine

@[simp] theorem accept_cfg (s : State) : (accept s).cfg = s.cfg := rfl
@[simp] theorem accept_op (s : State) : (accept s).op = s.op := rfl
@[simp] theorem accept_tvalid (s : State) : (accept s).tvalid = s.tvalid := rfl
@[simp] theorem accept_err (s : State) : (accept s).err = 0 := rfl
@[simp] theorem accept_crcIn (s : State) : (accept s).crcIn = s.crcIn := rfl
@[simp] theorem accept_addr (s : State) : (accept s).addr = s.addr := rfl
@[simp] theorem accept_len (s : State) : (accept s).len = s.len := rfl
@[simp] theorem accept_crcOut (s : State) : (accept s).crcOut = s.crcOut := rfl
@[simp] theorem accept_tidx (s : State) : (accept s).tidx = s.tidx := rfl
@[simp] theorem accept_tdata (s : State) : (accept s).tdata = s.tdata := rfl
@[simp] theorem accept_errAddr (s : State) : (accept s).errAddr = s.errAddr := rfl
@[simp] theorem accept_table (s : State) : (accept s).table = s.table := rfl
@[simp] theorem accept_acc (s : State) : (accept s).acc = s.acc := rfl
@[simp] theorem accept_cur (s : State) : (accept s).cur = s.cur := rfl
@[simp] theorem accept_rem (s : State) : (accept s).rem = s.rem := rfl
@[simp] theorem accept_mem (s : State) : (accept s).mem = s.mem := rfl
@[simp] theorem accept_busFaults (s : State) : (accept s).busFaults = s.busFaults := rfl
@[simp] theorem accept_raced (s : State) : (accept s).raced = s.raced := rfl
@[simp] theorem accept_draws (s : State) : (accept s).draws = s.draws := rfl
@[simp] theorem accept_reads (s : State) : (accept s).reads = s.reads := rfl
@[simp] theorem accept_host (s : State) : (accept s).host = s.host := rfl
@[simp] theorem accept_sched (s : State) : (accept s).sched = s.sched := rfl
@[simp] theorem accept_trace (s : State) : (accept s).trace = s.trace := rfl

@[simp] theorem reject_cfg (c : ErrCode) (s : State) : (reject c s).cfg = s.cfg := rfl
@[simp] theorem reject_op (c : ErrCode) (s : State) : (reject c s).op = s.op := rfl
@[simp] theorem reject_tvalid (c : ErrCode) (s : State) : (reject c s).tvalid = s.tvalid := rfl
@[simp] theorem reject_err (c : ErrCode) (s : State) : (reject c s).err = c.code := rfl
@[simp] theorem reject_crcIn (c : ErrCode) (s : State) : (reject c s).crcIn = s.crcIn := rfl
@[simp] theorem reject_addr (c : ErrCode) (s : State) : (reject c s).addr = s.addr := rfl
@[simp] theorem reject_len (c : ErrCode) (s : State) : (reject c s).len = s.len := rfl
@[simp] theorem reject_crcOut (c : ErrCode) (s : State) : (reject c s).crcOut = s.crcOut := rfl
@[simp] theorem reject_tidx (c : ErrCode) (s : State) : (reject c s).tidx = s.tidx := rfl
@[simp] theorem reject_tdata (c : ErrCode) (s : State) : (reject c s).tdata = s.tdata := rfl
@[simp] theorem reject_errAddr (c : ErrCode) (s : State) : (reject c s).errAddr = s.errAddr := rfl
@[simp] theorem reject_table (c : ErrCode) (s : State) : (reject c s).table = s.table := rfl
@[simp] theorem reject_acc (c : ErrCode) (s : State) : (reject c s).acc = s.acc := rfl
@[simp] theorem reject_cur (c : ErrCode) (s : State) : (reject c s).cur = s.cur := rfl
@[simp] theorem reject_rem (c : ErrCode) (s : State) : (reject c s).rem = s.rem := rfl
@[simp] theorem reject_mem (c : ErrCode) (s : State) : (reject c s).mem = s.mem := rfl
@[simp] theorem reject_busFaults (c : ErrCode) (s : State) : (reject c s).busFaults = s.busFaults := rfl
@[simp] theorem reject_raced (c : ErrCode) (s : State) : (reject c s).raced = s.raced := rfl
@[simp] theorem reject_draws (c : ErrCode) (s : State) : (reject c s).draws = s.draws := rfl
@[simp] theorem reject_reads (c : ErrCode) (s : State) : (reject c s).reads = s.reads := rfl
@[simp] theorem reject_host (c : ErrCode) (s : State) : (reject c s).host = s.host := rfl
@[simp] theorem reject_sched (c : ErrCode) (s : State) : (reject c s).sched = s.sched := rfl
@[simp] theorem reject_trace (c : ErrCode) (s : State) : (reject c s).trace = s.trace := rfl

@[simp] theorem noteRead_cfg (s : State) (a : Nat) (sz : ReadSize) : (noteRead s a sz).cfg = s.cfg := rfl
@[simp] theorem noteRead_op (s : State) (a : Nat) (sz : ReadSize) : (noteRead s a sz).op = s.op := rfl
@[simp] theorem noteRead_tvalid (s : State) (a : Nat) (sz : ReadSize) : (noteRead s a sz).tvalid = s.tvalid := rfl
@[simp] theorem noteRead_err (s : State) (a : Nat) (sz : ReadSize) : (noteRead s a sz).err = s.err := rfl
@[simp] theorem noteRead_crcIn (s : State) (a : Nat) (sz : ReadSize) : (noteRead s a sz).crcIn = s.crcIn := rfl
@[simp] theorem noteRead_addr (s : State) (a : Nat) (sz : ReadSize) : (noteRead s a sz).addr = s.addr := rfl
@[simp] theorem noteRead_len (s : State) (a : Nat) (sz : ReadSize) : (noteRead s a sz).len = s.len := rfl
@[simp] theorem noteRead_crcOut (s : State) (a : Nat) (sz : ReadSize) : (noteRead s a sz).crcOut = s.crcOut := rfl
@[simp] theorem noteRead_tidx (s : State) (a : Nat) (sz : ReadSize) : (noteRead s a sz).tidx = s.tidx := rfl
@[simp] theorem noteRead_tdata (s : State) (a : Nat) (sz : ReadSize) : (noteRead s a sz).tdata = s.tdata := rfl
@[simp] theorem noteRead_errAddr (s : State) (a : Nat) (sz : ReadSize) : (noteRead s a sz).errAddr = s.errAddr := rfl
@[simp] theorem noteRead_table (s : State) (a : Nat) (sz : ReadSize) : (noteRead s a sz).table = s.table := rfl
@[simp] theorem noteRead_acc (s : State) (a : Nat) (sz : ReadSize) : (noteRead s a sz).acc = s.acc := rfl
@[simp] theorem noteRead_cur (s : State) (a : Nat) (sz : ReadSize) : (noteRead s a sz).cur = s.cur := rfl
@[simp] theorem noteRead_rem (s : State) (a : Nat) (sz : ReadSize) : (noteRead s a sz).rem = s.rem := rfl
@[simp] theorem noteRead_mem (s : State) (a : Nat) (sz : ReadSize) : (noteRead s a sz).mem = s.mem := rfl
@[simp] theorem noteRead_busFaults (s : State) (a : Nat) (sz : ReadSize) : (noteRead s a sz).busFaults =
    s.busFaults := rfl
@[simp] theorem noteRead_raced (s : State) (a : Nat) (sz : ReadSize) : (noteRead s a sz).raced = s.raced := rfl
@[simp] theorem noteRead_draws (s : State) (a : Nat) (sz : ReadSize) : (noteRead s a sz).draws =
    s.draws + sz.bytes := rfl
@[simp] theorem noteRead_reads (s : State) (a : Nat) (sz : ReadSize) : (noteRead s a sz).reads =
    ⟨a, sz⟩ :: s.reads := rfl
@[simp] theorem noteRead_host (s : State) (a : Nat) (sz : ReadSize) : (noteRead s a sz).host = s.host := rfl
@[simp] theorem noteRead_sched (s : State) (a : Nat) (sz : ReadSize) : (noteRead s a sz).sched = s.sched := rfl
@[simp] theorem noteRead_trace (s : State) (a : Nat) (sz : ReadSize) : (noteRead s a sz).trace = s.trace := rfl

@[simp] theorem freeWork_cfg (s : State) : (freeWork s).cfg = s.cfg := rfl
@[simp] theorem freeWork_op (s : State) : (freeWork s).op = s.op := rfl
@[simp] theorem freeWork_tvalid (s : State) : (freeWork s).tvalid = s.tvalid := rfl
@[simp] theorem freeWork_err (s : State) : (freeWork s).err = s.err := rfl
@[simp] theorem freeWork_crcIn (s : State) : (freeWork s).crcIn = s.crcIn := rfl
@[simp] theorem freeWork_addr (s : State) : (freeWork s).addr = s.addr := rfl
@[simp] theorem freeWork_len (s : State) : (freeWork s).len = s.len := rfl
@[simp] theorem freeWork_crcOut (s : State) : (freeWork s).crcOut = s.crcOut := rfl
@[simp] theorem freeWork_tidx (s : State) : (freeWork s).tidx = s.tidx := rfl
@[simp] theorem freeWork_tdata (s : State) : (freeWork s).tdata = s.tdata := rfl
@[simp] theorem freeWork_errAddr (s : State) : (freeWork s).errAddr = s.errAddr := rfl
@[simp] theorem freeWork_table (s : State) : (freeWork s).table = s.table := rfl
@[simp] theorem freeWork_acc (s : State) : (freeWork s).acc = Config.freeAcc s.draws := rfl
@[simp] theorem freeWork_cur (s : State) : (freeWork s).cur = (Config.freeCur (memSize s) s.draws).val := rfl
@[simp] theorem freeWork_rem (s : State) : (freeWork s).rem = (Config.freeRem s.draws).toNat := rfl
@[simp] theorem freeWork_mem (s : State) : (freeWork s).mem = s.mem := rfl
@[simp] theorem freeWork_busFaults (s : State) : (freeWork s).busFaults = s.busFaults := rfl
@[simp] theorem freeWork_raced (s : State) : (freeWork s).raced = s.raced := rfl
@[simp] theorem freeWork_draws (s : State) : (freeWork s).draws = s.draws + 1 := rfl
@[simp] theorem freeWork_reads (s : State) : (freeWork s).reads = s.reads := rfl
@[simp] theorem freeWork_host (s : State) : (freeWork s).host = s.host := rfl
@[simp] theorem freeWork_sched (s : State) : (freeWork s).sched = s.sched := rfl
@[simp] theorem freeWork_trace (s : State) : (freeWork s).trace = s.trace := rfl

@[simp] theorem abort_cfg (a : Nat) (s : State) : (abort a s).cfg = s.cfg := rfl
@[simp] theorem abort_op (a : Nat) (s : State) : (abort a s).op = .idle := rfl
@[simp] theorem abort_tvalid (a : Nat) (s : State) : (abort a s).tvalid = s.tvalid := rfl
@[simp] theorem abort_err (a : Nat) (s : State) : (abort a s).err = 5 := rfl
@[simp] theorem abort_crcIn (a : Nat) (s : State) : (abort a s).crcIn = s.crcIn := rfl
@[simp] theorem abort_addr (a : Nat) (s : State) : (abort a s).addr = s.addr := rfl
@[simp] theorem abort_len (a : Nat) (s : State) : (abort a s).len = s.len := rfl
@[simp] theorem abort_crcOut (a : Nat) (s : State) : (abort a s).crcOut = s.crcOut := rfl
@[simp] theorem abort_tidx (a : Nat) (s : State) : (abort a s).tidx = s.tidx := rfl
@[simp] theorem abort_tdata (a : Nat) (s : State) : (abort a s).tdata = s.tdata := rfl
@[simp] theorem abort_errAddr (a : Nat) (s : State) : (abort a s).errAddr = BitVec.ofNat 64 a := rfl
@[simp] theorem abort_table (a : Nat) (s : State) : (abort a s).table = s.table := rfl
@[simp] theorem abort_acc (a : Nat) (s : State) : (abort a s).acc = Config.freeAcc s.draws := rfl
@[simp] theorem abort_cur (a : Nat) (s : State) : (abort a s).cur = (Config.freeCur (memSize s) s.draws).val := rfl
@[simp] theorem abort_rem (a : Nat) (s : State) : (abort a s).rem = (Config.freeRem s.draws).toNat := rfl
@[simp] theorem abort_mem (a : Nat) (s : State) : (abort a s).mem = s.mem := rfl
@[simp] theorem abort_busFaults (a : Nat) (s : State) : (abort a s).busFaults = s.busFaults := rfl
@[simp] theorem abort_raced (a : Nat) (s : State) : (abort a s).raced = s.raced := rfl
@[simp] theorem abort_draws (a : Nat) (s : State) : (abort a s).draws = s.draws + 1 := rfl
@[simp] theorem abort_reads (a : Nat) (s : State) : (abort a s).reads = s.reads := rfl
@[simp] theorem abort_host (a : Nat) (s : State) : (abort a s).host = s.host := rfl
@[simp] theorem abort_sched (a : Nat) (s : State) : (abort a s).sched = s.sched := rfl
@[simp] theorem abort_trace (a : Nat) (s : State) : (abort a s).trace = s.trace := rfl

@[simp] theorem finish_cfg (s : State) : (finish s).cfg = s.cfg := rfl
@[simp] theorem finish_op (s : State) : (finish s).op = .idle := rfl
@[simp] theorem finish_tvalid (s : State) : (finish s).tvalid = s.tvalid := rfl
@[simp] theorem finish_err (s : State) : (finish s).err = s.err := rfl
@[simp] theorem finish_crcIn (s : State) : (finish s).crcIn = s.crcIn := rfl
@[simp] theorem finish_addr (s : State) : (finish s).addr = s.addr := rfl
@[simp] theorem finish_len (s : State) : (finish s).len = s.len := rfl
@[simp] theorem finish_crcOut (s : State) : (finish s).crcOut = orient s.cfg.endian s.acc := rfl
@[simp] theorem finish_tidx (s : State) : (finish s).tidx = s.tidx := rfl
@[simp] theorem finish_tdata (s : State) : (finish s).tdata = s.tdata := rfl
@[simp] theorem finish_errAddr (s : State) : (finish s).errAddr = s.errAddr := rfl
@[simp] theorem finish_table (s : State) : (finish s).table = s.table := rfl
@[simp] theorem finish_acc (s : State) : (finish s).acc = Config.freeAcc s.draws := rfl
@[simp] theorem finish_cur (s : State) : (finish s).cur = (Config.freeCur (memSize s) s.draws).val := rfl
@[simp] theorem finish_rem (s : State) : (finish s).rem = (Config.freeRem s.draws).toNat := rfl
@[simp] theorem finish_mem (s : State) : (finish s).mem = s.mem := rfl
@[simp] theorem finish_busFaults (s : State) : (finish s).busFaults = s.busFaults := rfl
@[simp] theorem finish_raced (s : State) : (finish s).raced = s.raced := rfl
@[simp] theorem finish_draws (s : State) : (finish s).draws = s.draws + 1 := rfl
@[simp] theorem finish_reads (s : State) : (finish s).reads = s.reads := rfl
@[simp] theorem finish_host (s : State) : (finish s).host = s.host := rfl
@[simp] theorem finish_sched (s : State) : (finish s).sched = s.sched := rfl
@[simp] theorem finish_trace (s : State) : (finish s).trace = s.trace := rfl

@[simp] theorem resetEvent_cfg (s : State) : (resetEvent s).cfg = s.cfg := rfl
@[simp] theorem resetEvent_op (s : State) : (resetEvent s).op = .idle := rfl
@[simp] theorem resetEvent_tvalid (s : State) : (resetEvent s).tvalid = false := rfl
@[simp] theorem resetEvent_err (s : State) : (resetEvent s).err = 0 := rfl
@[simp] theorem resetEvent_crcIn (s : State) : (resetEvent s).crcIn = 0 := rfl
@[simp] theorem resetEvent_addr (s : State) : (resetEvent s).addr = 0 := rfl
@[simp] theorem resetEvent_len (s : State) : (resetEvent s).len = 0 := rfl
@[simp] theorem resetEvent_crcOut (s : State) : (resetEvent s).crcOut = 0 := rfl
@[simp] theorem resetEvent_tidx (s : State) : (resetEvent s).tidx = 0 := rfl
@[simp] theorem resetEvent_tdata (s : State) : (resetEvent s).tdata = 0 := rfl
@[simp] theorem resetEvent_errAddr (s : State) : (resetEvent s).errAddr = 0 := rfl
@[simp] theorem resetEvent_table (s : State) : (resetEvent s).table =
    tabulate 8 fun k => tabulate 256 fun n => Config.freeEntry s.draws k n := rfl
@[simp] theorem resetEvent_acc (s : State) : (resetEvent s).acc = Config.freeAcc (s.draws + 1) := rfl
@[simp] theorem resetEvent_cur (s : State) : (resetEvent s).cur =
    (Config.freeCur (memSize s) (s.draws + 1)).val := rfl
@[simp] theorem resetEvent_rem (s : State) : (resetEvent s).rem = (Config.freeRem (s.draws + 1)).toNat := rfl
@[simp] theorem resetEvent_mem (s : State) : (resetEvent s).mem = s.mem := rfl
@[simp] theorem resetEvent_busFaults (s : State) : (resetEvent s).busFaults = s.busFaults := rfl
@[simp] theorem resetEvent_raced (s : State) : (resetEvent s).raced = s.raced := rfl
@[simp] theorem resetEvent_draws (s : State) : (resetEvent s).draws = s.draws + 2 := rfl
@[simp] theorem resetEvent_reads (s : State) : (resetEvent s).reads = s.reads := rfl
@[simp] theorem resetEvent_host (s : State) : (resetEvent s).host = s.host := rfl
@[simp] theorem resetEvent_sched (s : State) : (resetEvent s).sched = s.sched := rfl
@[simp] theorem resetEvent_trace (s : State) : (resetEvent s).trace = s.trace := rfl

@[simp] theorem acceptBuild_cfg (s : State) : (acceptBuild s).cfg = s.cfg := rfl
@[simp] theorem acceptBuild_op (s : State) : (acceptBuild s).op = .building := rfl
@[simp] theorem acceptBuild_tvalid (s : State) : (acceptBuild s).tvalid = false := rfl
@[simp] theorem acceptBuild_err (s : State) : (acceptBuild s).err = 0 := rfl
@[simp] theorem acceptBuild_crcIn (s : State) : (acceptBuild s).crcIn = s.crcIn := rfl
@[simp] theorem acceptBuild_addr (s : State) : (acceptBuild s).addr = s.addr := rfl
@[simp] theorem acceptBuild_len (s : State) : (acceptBuild s).len = s.len := rfl
@[simp] theorem acceptBuild_crcOut (s : State) : (acceptBuild s).crcOut = s.crcOut := rfl
@[simp] theorem acceptBuild_tidx (s : State) : (acceptBuild s).tidx = s.tidx := rfl
@[simp] theorem acceptBuild_tdata (s : State) : (acceptBuild s).tdata = s.tdata := rfl
@[simp] theorem acceptBuild_errAddr (s : State) : (acceptBuild s).errAddr = s.errAddr := rfl
@[simp] theorem acceptBuild_table (s : State) : (acceptBuild s).table = s.table := rfl
@[simp] theorem acceptBuild_acc (s : State) : (acceptBuild s).acc = s.acc := rfl
@[simp] theorem acceptBuild_cur (s : State) : (acceptBuild s).cur = s.cur := rfl
@[simp] theorem acceptBuild_rem (s : State) : (acceptBuild s).rem = s.rem := rfl
@[simp] theorem acceptBuild_mem (s : State) : (acceptBuild s).mem = s.mem := rfl
@[simp] theorem acceptBuild_busFaults (s : State) : (acceptBuild s).busFaults = s.busFaults := rfl
@[simp] theorem acceptBuild_raced (s : State) : (acceptBuild s).raced = s.raced := rfl
@[simp] theorem acceptBuild_draws (s : State) : (acceptBuild s).draws = s.draws := rfl
@[simp] theorem acceptBuild_reads (s : State) : (acceptBuild s).reads = s.reads := rfl
@[simp] theorem acceptBuild_host (s : State) : (acceptBuild s).host = s.host := rfl
@[simp] theorem acceptBuild_sched (s : State) : (acceptBuild s).sched = s.sched := rfl
@[simp] theorem acceptBuild_trace (s : State) : (acceptBuild s).trace = s.trace := rfl

@[simp] theorem buildDone_cfg (s : State) : (buildDone s).cfg = s.cfg := rfl
@[simp] theorem buildDone_op (s : State) : (buildDone s).op = .idle := rfl
@[simp] theorem buildDone_tvalid (s : State) : (buildDone s).tvalid = true := rfl
@[simp] theorem buildDone_err (s : State) : (buildDone s).err = s.err := rfl
@[simp] theorem buildDone_crcIn (s : State) : (buildDone s).crcIn = s.crcIn := rfl
@[simp] theorem buildDone_addr (s : State) : (buildDone s).addr = s.addr := rfl
@[simp] theorem buildDone_len (s : State) : (buildDone s).len = s.len := rfl
@[simp] theorem buildDone_crcOut (s : State) : (buildDone s).crcOut = s.crcOut := rfl
@[simp] theorem buildDone_tidx (s : State) : (buildDone s).tidx = s.tidx := rfl
@[simp] theorem buildDone_tdata (s : State) : (buildDone s).tdata = s.tdata := rfl
@[simp] theorem buildDone_errAddr (s : State) : (buildDone s).errAddr = s.errAddr := rfl
@[simp] theorem buildDone_table (s : State) : (buildDone s).table = storedTable s.cfg := rfl
@[simp] theorem buildDone_acc (s : State) : (buildDone s).acc = s.acc := rfl
@[simp] theorem buildDone_cur (s : State) : (buildDone s).cur = s.cur := rfl
@[simp] theorem buildDone_rem (s : State) : (buildDone s).rem = s.rem := rfl
@[simp] theorem buildDone_mem (s : State) : (buildDone s).mem = s.mem := rfl
@[simp] theorem buildDone_busFaults (s : State) : (buildDone s).busFaults = s.busFaults := rfl
@[simp] theorem buildDone_raced (s : State) : (buildDone s).raced = s.raced := rfl
@[simp] theorem buildDone_draws (s : State) : (buildDone s).draws = s.draws := rfl
@[simp] theorem buildDone_reads (s : State) : (buildDone s).reads = s.reads := rfl
@[simp] theorem buildDone_host (s : State) : (buildDone s).host = s.host := rfl
@[simp] theorem buildDone_sched (s : State) : (buildDone s).sched = s.sched := rfl
@[simp] theorem buildDone_trace (s : State) : (buildDone s).trace = s.trace := rfl

@[simp] theorem acceptCompute_cfg (s : State) : (acceptCompute s).cfg = s.cfg := rfl
@[simp] theorem acceptCompute_op (s : State) : (acceptCompute s).op = .computing := rfl
@[simp] theorem acceptCompute_tvalid (s : State) : (acceptCompute s).tvalid = s.tvalid := rfl
@[simp] theorem acceptCompute_err (s : State) : (acceptCompute s).err = 0 := rfl
@[simp] theorem acceptCompute_crcIn (s : State) : (acceptCompute s).crcIn = s.crcIn := rfl
@[simp] theorem acceptCompute_addr (s : State) : (acceptCompute s).addr = s.addr := rfl
@[simp] theorem acceptCompute_len (s : State) : (acceptCompute s).len = s.len := rfl
@[simp] theorem acceptCompute_crcOut (s : State) : (acceptCompute s).crcOut = s.crcOut := rfl
@[simp] theorem acceptCompute_tidx (s : State) : (acceptCompute s).tidx = s.tidx := rfl
@[simp] theorem acceptCompute_tdata (s : State) : (acceptCompute s).tdata = s.tdata := rfl
@[simp] theorem acceptCompute_errAddr (s : State) : (acceptCompute s).errAddr = s.errAddr := rfl
@[simp] theorem acceptCompute_table (s : State) : (acceptCompute s).table = s.table := rfl
@[simp] theorem acceptCompute_acc (s : State) : (acceptCompute s).acc = orient s.cfg.endian s.crcIn := rfl
@[simp] theorem acceptCompute_cur (s : State) : (acceptCompute s).cur = s.addr.toNat := rfl
@[simp] theorem acceptCompute_rem (s : State) : (acceptCompute s).rem = s.len.toNat := rfl
@[simp] theorem acceptCompute_mem (s : State) : (acceptCompute s).mem = s.mem := rfl
@[simp] theorem acceptCompute_busFaults (s : State) : (acceptCompute s).busFaults = s.busFaults := rfl
@[simp] theorem acceptCompute_raced (s : State) : (acceptCompute s).raced = [] := rfl
@[simp] theorem acceptCompute_draws (s : State) : (acceptCompute s).draws = s.draws := rfl
@[simp] theorem acceptCompute_reads (s : State) : (acceptCompute s).reads = s.reads := rfl
@[simp] theorem acceptCompute_host (s : State) : (acceptCompute s).host = s.host := rfl
@[simp] theorem acceptCompute_sched (s : State) : (acceptCompute s).sched = s.sched := rfl
@[simp] theorem acceptCompute_trace (s : State) : (acceptCompute s).trace = s.trace := rfl

@[simp] theorem memSize_withSched (s : State) (ts : List Turn) : memSize { s with sched := ts } = memSize s := rfl

end Sys2Proof.Machine
end

