-- ==== Sys2Proof/Laws/Steps.lean ====
section
/-! SUPPORT. Inversion: everything a command, a register write, a host transaction, an engine step and a step of the
machine can do, said once. -/

namespace Sys2Proof.Machine

theorem exec_cases (i : Instr) (s : State) :
    (s.op ≠ .idle ∧ exec i s = .next (reject .busy s)) ∨
    (s.op = .idle ∧ i = .nop ∧ exec i s = .next (accept s)) ∨
    (s.op = .idle ∧ i = .build ∧ exec i s = .next (acceptBuild s)) ∨
    (s.op = .idle ∧ i = .compute ∧ s.tvalid = true ∧ rangeOk s ∧ exec i s = .next (acceptCompute s)) ∨
    (s.op = .idle ∧ i = .compute ∧ s.tvalid = true ∧ ¬ rangeOk s ∧ exec i s = .next (reject .range s)) ∨
    (s.op = .idle ∧ (i = .compute ∨ i = .rdtab) ∧ s.tvalid = false ∧ exec i s = .next (reject .noTable s)) ∨
    (s.op = .idle ∧ i = .rdtab ∧ s.tvalid = true ∧
      exec i s = .next { s with err := 0, tdata := lookup s.table (tidxRow s.tidx) (tidxCol s.tidx) }) := by
  by_cases h : s.op = .idle
  · cases i
    · exact .inr (.inl ⟨h, rfl, by simp only [exec, execNop, whenIdle_idle _ h]⟩)
    · exact .inr (.inr (.inl ⟨h, rfl, by simp only [exec, execBuild, whenIdle_idle _ h]⟩))
    · rcases Bool.eq_false_or_eq_true s.tvalid with ht | ht
      rotate_left
      · exact .inr (.inr (.inr (.inr (.inr (.inl ⟨h, .inl rfl, ht,
          by simp only [exec, execCompute, whenIdle_idle _ h, whenTable_invalid _ ht]⟩)))))
      · by_cases hr : rangeOk s
        · exact .inr (.inr (.inr (.inl ⟨h, rfl, ht, hr,
            by simp only [exec, execCompute, whenIdle_idle _ h, whenTable_valid _ ht, if_pos hr]⟩)))
        · exact .inr (.inr (.inr (.inr (.inl ⟨h, rfl, ht, hr,
            by simp only [exec, execCompute, whenIdle_idle _ h, whenTable_valid _ ht, if_neg hr]⟩))))
    · rcases Bool.eq_false_or_eq_true s.tvalid with ht | ht
      rotate_left
      · exact .inr (.inr (.inr (.inr (.inr (.inl ⟨h, .inr rfl, ht,
          by simp only [exec, execRdtab, whenIdle_idle _ h, whenTable_invalid _ ht]⟩)))))
      · exact .inr (.inr (.inr (.inr (.inr (.inr ⟨h, rfl, ht,
          by simp only [exec, execRdtab, whenIdle_idle _ h, whenTable_valid _ ht]; rfl⟩)))))
  · refine .inl ⟨h, ?_⟩
    cases i <;> simp only [exec, execNop, execBuild, execCompute, execRdtab, whenIdle_busy _ h]

theorem issueIllegal_cases (s : State) :
    (s.op ≠ .idle ∧ issueIllegal s = .next (reject .busy s)) ∨
    (s.op = .idle ∧ issueIllegal s = .next (reject .illegal s)) := by
  by_cases h : s.op = .idle
  · exact .inr ⟨h, by simp only [issueIllegal, whenIdle_idle _ h]⟩
  · exact .inl ⟨h, by simp only [issueIllegal, whenIdle_busy _ h]⟩

theorem warlTidx_lt (v : Word) : (warlTidx v).toNat < 2 ^ 11 := by
  simp only [warlTidx, BitVec.toNat_setWidth]
  have := (v.extractLsb' 0 11).isLt
  omega

/-- A register write: a command issued, one of the four writable registers, or nothing. -/
theorem regWrite_cases (off : Nat) (v : Word) (s : State) :
    (off = 0x00 ∧ (∃ i, decode v = .cmd i ∧ regWrite off v s = exec i s)) ∨
    (off = 0x00 ∧ (∃ y, decode v = .illegal y) ∧ regWrite off v s = issueIllegal s) ∨
    (off = 0x30 ∧ regWrite off v s = .next { s with tidx := warlTidx v }) ∨
    (off = 0x10 ∧ regWrite off v s = .next { s with crcIn := v }) ∨
    (off = 0x18 ∧ regWrite off v s = .next { s with addr := v }) ∨
    (off = 0x20 ∧ regWrite off v s = .next { s with len := v }) ∨ regWrite off v s = .next s := by
  have hoff : ∀ r, regAt off = some r → off = offsetOf r := by
    intro r h
    simp only [regAt] at h
    repeat' split at h
    all_goals simp_all [offsetOf]
    all_goals (subst h; rfl)
  simp only [regWrite]
  cases h : regAt off with
  | none => simp
  | some r =>
    cases r
    case cmd =>
      have h0 : off = 0 := hoff _ h
      simp only [issue]
      cases hd : decode v with
      | cmd i => exact .inl ⟨h0, i, rfl, rfl⟩
      | illegal y => exact .inr (.inl ⟨h0, ⟨y, rfl⟩, rfl⟩)
    all_goals
      have h0 := hoff _ h
      simp [State.setCrcIn, State.setAddr, State.setLen, State.setTidx, h0, offsetOf]

/-- Every legal access is one of the sixteen slots. -/
theorem accessRefusal_none {off width : Nat} : accessRefusal off width = none ↔ accessWf off width = true := by
  simp only [accessRefusal, accessWf]
  split
  · simp [*]
  · split
    · simp [*]
    · split <;> simp_all

theorem hostStep_cases (s : State) :
    (s.host = [] ∧ hostStep s = .next s) ∨
    (∃ op rest r, s.host = op :: rest ∧ (∀ n, op.wf n = false) ∧ hostStep s = .refused r) ∨
    (∃ off v rest, s.host = .write off 64 v :: rest ∧ hostStep s = regWrite off v { s with host := rest }) ∨
    (∃ off rest, s.host = .read off 64 :: rest ∧
      hostStep s = .next { s with host := rest, trace := (off, regRead off s) :: s.trace }) ∨
    (∃ rest, s.host = .poll :: rest ∧ (statusWord s).getLsbD 0 = true ∧
      hostStep s = .next { s with trace := (0x08, statusWord s) :: s.trace }) ∨
    (∃ rest, s.host = .poll :: rest ∧ (statusWord s).getLsbD 0 = false ∧
      hostStep s = .next { s with host := rest, trace := (0x08, statusWord s) :: s.trace }) ∨
    (∃ a b rest, s.host = .store a b :: rest ∧ hostStep s = hostStore a b { s with host := rest }) := by
  obtain h | ⟨op, rest, h⟩ : s.host = [] ∨ ∃ op rest, s.host = op :: rest := by cases s.host <;> simp
  · exact .inl ⟨h, by simp [hostStep, h]⟩
  · right
    cases op with
    | write off width v =>
      cases hr : accessRefusal off width with
      | some r =>
        refine .inl ⟨_, _, r, h, fun n => ?_, by simp [hostStep, h, hr]⟩
        have := mt accessRefusal_none.mpr (by simp [hr] : ¬ accessRefusal off width = none)
        simpa [HostOp.wf] using this
      | none =>
        have hw : width = 64 := by
          have := accessRefusal_none.mp hr
          simp [accessWf] at this
          exact this.1.1
        subst hw
        exact .inr (.inl ⟨off, v, rest, h, by simp only [hostStep, h, hr]; rfl⟩)
    | read off width =>
      cases hr : accessRefusal off width with
      | some r =>
        refine .inl ⟨_, _, r, h, fun n => ?_, by simp [hostStep, h, hr]⟩
        have := mt accessRefusal_none.mpr (by simp [hr] : ¬ accessRefusal off width = none)
        simpa [HostOp.wf] using this
      | none =>
        have hw : width = 64 := by
          have := accessRefusal_none.mp hr
          simp [accessWf] at this
          exact this.1.1
        subst hw
        exact .inr (.inr (.inl ⟨off, rest, h, by simp only [hostStep, h, hr]; rfl⟩))
    | poll =>
      rcases Bool.eq_false_or_eq_true ((statusWord s).getLsbD 0) with hb | hb
      · exact .inr (.inr (.inr (.inl ⟨rest, h, hb, by simp only [hostStep, h, hb, if_true]; rw [← h]; rfl⟩)))
      · exact .inr (.inr (.inr (.inr (.inl ⟨rest, h, hb, by simp only [hostStep, h, hb, Bool.false_eq_true, if_false]; rfl⟩))))
    | store a b => exact .inr (.inr (.inr (.inr (.inr ⟨a, b, rest, h, by simp only [hostStep, h]; rfl⟩))))

theorem engineStep_cases (s : State) :
    (s.op = .idle ∧ engineStep s = .next s) ∨
    (s.op = .building ∧ engineStep s = .next (buildDone s)) ∨
    (s.op = .computing ∧ s.rem = 0 ∧ engineStep s = .next (finish s)) ∨
    (s.op = .computing ∧ s.rem ≠ 0 ∧ (s.cur % 8 ≠ 0 ∨ s.rem < 8) ∧ engineStep s = bufferStep .byte s) ∨
    (s.op = .computing ∧ s.rem ≠ 0 ∧ s.cur % 8 = 0 ∧ 8 ≤ s.rem ∧ engineStep s = bufferStep .word s) := by
  cases h : s.op
  · exact .inl ⟨rfl, by simp [engineStep, enabledStep, h]⟩
  · exact .inr (.inl ⟨rfl, by simp [engineStep, enabledStep, h]⟩)
  · by_cases h0 : s.rem = 0
    · exact .inr (.inr (.inl ⟨rfl, h0, by simp [engineStep, enabledStep, h, h0]⟩))
    · by_cases hb : s.cur % 8 ≠ 0 ∨ s.rem < 8
      · exact .inr (.inr (.inr (.inl ⟨rfl, h0, hb, by simp [engineStep, enabledStep, h, h0, hb]⟩)))
      · refine .inr (.inr (.inr (.inr ⟨rfl, h0, by omega, by omega, ?_⟩)))
        simp only [engineStep, enabledStep, h, if_neg h0, if_neg hb]

/-- A step is the event of the turn that is next, on the state with that turn taken away. -/
theorem step_eq (s : State) : step s = runTurn (turnOf s) { s with sched := s.sched.tail } := by
  cases h : s.sched with
  | nil =>
    have hs : { s with sched := ([] : List Turn).tail } = s := by
      cases s
      simp_all
    simp only [step, nextEvent, turnOf, h, hs]
  | cons t ts =>
    simp only [step, nextEvent, turnOf, h]
    rfl

theorem step_turn (s : State) (t : Turn) (ts : List Turn) :
    step { s with sched := t :: ts } = runTurn t { s with sched := ts } := by
  rw [step_eq]
  rfl

theorem step_default (s : State) : step { s with sched := [] } = runTurn (defaultTurn s) { s with sched := [] } := by
  rw [step_eq]
  rfl

@[simp] theorem runTurn_host (s : State) : runTurn .host s = hostStep s := rfl

@[simp] theorem runTurn_engine (s : State) : runTurn .engine s = engineStep s := rfl

@[simp] theorem runTurn_reset (s : State) : runTurn .reset s = .next (resetEvent s) := rfl

@[simp] theorem runTurn_bus (s : State) (rs : List FaultRegion) :
    runTurn (.bus rs) s = .next { s with busFaults := rs } := rfl

end Sys2Proof.Machine
end

