-- ==== Sys2Proof/Laws/Inversion.lean ====
section
/-! SUPPORT. Everything a step that answers a next state can have done, as one list of cases with the state each gives. -/

namespace Sys2Proof.Machine

/-- The state with the turn that is next taken away. -/
def popTurn (s : State) : State := { s with sched := s.sched.tail }

/-- The state with the turn that is next and the host's transaction taken away. -/
def popOp (s : State) (rest : List HostOp) : State := { s with sched := s.sched.tail, host := rest }

@[simp] theorem popTurn_cfg (s : State) : (popTurn s).cfg = s.cfg := rfl
@[simp] theorem popTurn_op (s : State) : (popTurn s).op = s.op := rfl
@[simp] theorem popTurn_tvalid (s : State) : (popTurn s).tvalid = s.tvalid := rfl
@[simp] theorem popTurn_err (s : State) : (popTurn s).err = s.err := rfl
@[simp] theorem popTurn_crcIn (s : State) : (popTurn s).crcIn = s.crcIn := rfl
@[simp] theorem popTurn_addr (s : State) : (popTurn s).addr = s.addr := rfl
@[simp] theorem popTurn_len (s : State) : (popTurn s).len = s.len := rfl
@[simp] theorem popTurn_crcOut (s : State) : (popTurn s).crcOut = s.crcOut := rfl
@[simp] theorem popTurn_tidx (s : State) : (popTurn s).tidx = s.tidx := rfl
@[simp] theorem popTurn_tdata (s : State) : (popTurn s).tdata = s.tdata := rfl
@[simp] theorem popTurn_errAddr (s : State) : (popTurn s).errAddr = s.errAddr := rfl
@[simp] theorem popTurn_table (s : State) : (popTurn s).table = s.table := rfl
@[simp] theorem popTurn_acc (s : State) : (popTurn s).acc = s.acc := rfl
@[simp] theorem popTurn_cur (s : State) : (popTurn s).cur = s.cur := rfl
@[simp] theorem popTurn_rem (s : State) : (popTurn s).rem = s.rem := rfl
@[simp] theorem popTurn_mem (s : State) : (popTurn s).mem = s.mem := rfl
@[simp] theorem popTurn_busFaults (s : State) : (popTurn s).busFaults = s.busFaults := rfl
@[simp] theorem popTurn_raced (s : State) : (popTurn s).raced = s.raced := rfl
@[simp] theorem popTurn_draws (s : State) : (popTurn s).draws = s.draws := rfl
@[simp] theorem popTurn_reads (s : State) : (popTurn s).reads = s.reads := rfl
@[simp] theorem popTurn_host (s : State) : (popTurn s).host = s.host := rfl
@[simp] theorem popTurn_sched (s : State) : (popTurn s).sched = s.sched.tail := rfl
@[simp] theorem popTurn_trace (s : State) : (popTurn s).trace = s.trace := rfl

@[simp] theorem popOp_cfg (s : State) (rest : List HostOp) : (popOp s rest).cfg = s.cfg := rfl
@[simp] theorem popOp_op (s : State) (rest : List HostOp) : (popOp s rest).op = s.op := rfl
@[simp] theorem popOp_tvalid (s : State) (rest : List HostOp) : (popOp s rest).tvalid = s.tvalid := rfl
@[simp] theorem popOp_err (s : State) (rest : List HostOp) : (popOp s rest).err = s.err := rfl
@[simp] theorem popOp_crcIn (s : State) (rest : List HostOp) : (popOp s rest).crcIn = s.crcIn := rfl
@[simp] theorem popOp_addr (s : State) (rest : List HostOp) : (popOp s rest).addr = s.addr := rfl
@[simp] theorem popOp_len (s : State) (rest : List HostOp) : (popOp s rest).len = s.len := rfl
@[simp] theorem popOp_crcOut (s : State) (rest : List HostOp) : (popOp s rest).crcOut = s.crcOut := rfl
@[simp] theorem popOp_tidx (s : State) (rest : List HostOp) : (popOp s rest).tidx = s.tidx := rfl
@[simp] theorem popOp_tdata (s : State) (rest : List HostOp) : (popOp s rest).tdata = s.tdata := rfl
@[simp] theorem popOp_errAddr (s : State) (rest : List HostOp) : (popOp s rest).errAddr = s.errAddr := rfl
@[simp] theorem popOp_table (s : State) (rest : List HostOp) : (popOp s rest).table = s.table := rfl
@[simp] theorem popOp_acc (s : State) (rest : List HostOp) : (popOp s rest).acc = s.acc := rfl
@[simp] theorem popOp_cur (s : State) (rest : List HostOp) : (popOp s rest).cur = s.cur := rfl
@[simp] theorem popOp_rem (s : State) (rest : List HostOp) : (popOp s rest).rem = s.rem := rfl
@[simp] theorem popOp_mem (s : State) (rest : List HostOp) : (popOp s rest).mem = s.mem := rfl
@[simp] theorem popOp_busFaults (s : State) (rest : List HostOp) : (popOp s rest).busFaults = s.busFaults := rfl
@[simp] theorem popOp_raced (s : State) (rest : List HostOp) : (popOp s rest).raced = s.raced := rfl
@[simp] theorem popOp_draws (s : State) (rest : List HostOp) : (popOp s rest).draws = s.draws := rfl
@[simp] theorem popOp_reads (s : State) (rest : List HostOp) : (popOp s rest).reads = s.reads := rfl
@[simp] theorem popOp_host (s : State) (rest : List HostOp) : (popOp s rest).host = rest := rfl
@[simp] theorem popOp_sched (s : State) (rest : List HostOp) : (popOp s rest).sched = s.sched.tail := rfl
@[simp] theorem popOp_trace (s : State) (rest : List HostOp) : (popOp s rest).trace = s.trace := rfl
/-- The width of the read the engine makes next (rule R121). -/
def nextSize (s : State) : ReadSize := if s.cur % 8 ≠ 0 ∨ s.rem < 8 then .byte else .word

/-- What a step from `s` did, and the state it gave. -/
inductive Happens (s : State) : State → Prop where
  | hostDone : turnOf s = .host → s.host = [] → Happens s (popTurn s)
  | busy (v : Word) (rest : List HostOp) : turnOf s = .host → s.host = .write 0x00 64 v :: rest → s.op ≠ .idle →
      Happens s { popOp s rest with err := 2 }
  | illegal (v : Word) (rest : List HostOp) (y : Illegal) : turnOf s = .host → s.host = .write 0x00 64 v :: rest →
      s.op = .idle → decode v = .illegal y → Happens s { popOp s rest with err := 1 }
  | nop (v : Word) (rest : List HostOp) : turnOf s = .host → s.host = .write 0x00 64 v :: rest → s.op = .idle →
      decode v = .cmd .nop → Happens s { popOp s rest with err := 0 }
  | build (v : Word) (rest : List HostOp) : turnOf s = .host → s.host = .write 0x00 64 v :: rest → s.op = .idle →
      decode v = .cmd .build → Happens s { popOp s rest with err := 0, tvalid := false, op := .building }
  | compute (v : Word) (rest : List HostOp) : turnOf s = .host → s.host = .write 0x00 64 v :: rest → s.op = .idle →
      decode v = .cmd .compute → s.tvalid = true → rangeOk s →
      Happens s { popOp s rest with
        err := 0
        acc := orient s.cfg.endian s.crcIn
        cur := s.addr.toNat
        rem := s.len.toNat
        raced := []
        op := .computing }
  | range (v : Word) (rest : List HostOp) : turnOf s = .host → s.host = .write 0x00 64 v :: rest → s.op = .idle →
      decode v = .cmd .compute → s.tvalid = true → ¬ rangeOk s → Happens s { popOp s rest with err := 4 }
  | noTable (v : Word) (rest : List HostOp) : turnOf s = .host → s.host = .write 0x00 64 v :: rest → s.op = .idle →
      decode v = .cmd .compute ∨ decode v = .cmd .rdtab → s.tvalid = false → Happens s { popOp s rest with err := 3 }
  | rdtab (v : Word) (rest : List HostOp) : turnOf s = .host → s.host = .write 0x00 64 v :: rest → s.op = .idle →
      decode v = .cmd .rdtab → s.tvalid = true →
      Happens s { popOp s rest with err := 0, tdata := lookup s.table (tidxRow s.tidx) (tidxCol s.tidx) }
  | setTidx (v : Word) (rest : List HostOp) : turnOf s = .host → s.host = .write 0x30 64 v :: rest →
      Happens s { popOp s rest with tidx := warlTidx v }
  | setCrcIn (v : Word) (rest : List HostOp) : turnOf s = .host → s.host = .write 0x10 64 v :: rest →
      Happens s { popOp s rest with crcIn := v }
  | setAddr (v : Word) (rest : List HostOp) : turnOf s = .host → s.host = .write 0x18 64 v :: rest →
      Happens s { popOp s rest with addr := v }
  | setLen (v : Word) (rest : List HostOp) : turnOf s = .host → s.host = .write 0x20 64 v :: rest →
      Happens s { popOp s rest with len := v }
  | ignored (off : Nat) (v : Word) (rest : List HostOp) : turnOf s = .host → s.host = .write off 64 v :: rest →
      Happens s (popOp s rest)
  | read (off : Nat) (rest : List HostOp) : turnOf s = .host → s.host = .read off 64 :: rest →
      Happens s { popOp s rest with trace := (off, regRead off s) :: s.trace }
  | pollBusy (rest : List HostOp) : turnOf s = .host → s.host = .poll :: rest → (statusWord s).getLsbD 0 = true →
      Happens s { popTurn s with trace := (0x08, statusWord s) :: s.trace }
  | pollDone (rest : List HostOp) : turnOf s = .host → s.host = .poll :: rest → (statusWord s).getLsbD 0 = false →
      Happens s { popOp s rest with trace := (0x08, statusWord s) :: s.trace }
  | store (a : Nat) (b : Byte) (rest : List HostOp) : turnOf s = .host → s.host = .store a b :: rest →
      a < memSize s →
      Happens s { popOp s rest with
        mem := s.mem.write a b
        raced := if s.op = .computing then (a, s.mem.read a) :: s.raced else s.raced }
  | engineIdle : turnOf s = .engine → s.op = .idle → Happens s (popTurn s)
  | buildDone : turnOf s = .engine → s.op = .building →
      Happens s { popTurn s with table := storedTable s.cfg, tvalid := true, op := .idle }
  | finish : turnOf s = .engine → s.op = .computing → s.rem = 0 → Happens s (finish (popTurn s))
  | abort : turnOf s = .engine → s.op = .computing → s.rem ≠ 0 → s.cur + (nextSize s).bytes ≤ memSize s →
      busFaulted s.busFaults s.cur (nextSize s) = true →
      Happens s (abort s.cur (noteRead (popTurn s) s.cur (nextSize s)))
  | data : turnOf s = .engine → s.op = .computing → s.rem ≠ 0 → s.cur + (nextSize s).bytes ≤ memSize s →
      busFaulted s.busFaults s.cur (nextSize s) = false →
      Happens s { popTurn s with
        acc := combine (nextSize s) s.cfg.endian s.table s.acc
          ((List.range (nextSize s).bytes).map fun i => raceRead s (s.cur + i) (s.draws + i))
        cur := s.cur + (nextSize s).bytes
        rem := s.rem - (nextSize s).bytes
        reads := ⟨s.cur, nextSize s⟩ :: s.reads
        draws := s.draws + (nextSize s).bytes }
  | reset : turnOf s = .reset → Happens s (resetEvent (popTurn s))
  | bus (rs : List FaultRegion) : turnOf s = .bus rs → Happens s { popTurn s with busFaults := rs }

/-- A running COMPUTE with bytes left makes one read, of the width rule R121 chooses. -/
theorem engineStep_reads {s : State} (h : s.op = .computing) (h0 : s.rem ≠ 0) :
    engineStep s = bufferStep (nextSize s) s := by
  by_cases hb : s.cur % 8 ≠ 0 ∨ s.rem < 8
  · simp only [engineStep, enabledStep, nextSize, h, if_neg h0, if_pos hb]
  · simp only [engineStep, enabledStep, nextSize, h, if_neg h0, if_neg hb]

theorem nextSize_le {s : State} (h0 : s.rem ≠ 0) : (nextSize s).bytes ≤ s.rem := by
  simp only [nextSize]
  split <;> simp only [ReadSize.bytes] <;> omega

theorem nextSize_pos (s : State) : 0 < (nextSize s).bytes := by
  simp only [nextSize]
  split <;> simp [ReadSize.bytes]

theorem hostStep_happens {s t : State} (ht : turnOf s = .host) (h : hostStep (popTurn s) = .next t) : Happens s t := by
  rcases hostStep_cases (popTurn s) with ⟨hn, e⟩ | ⟨_, _, _, -, -, e⟩ | ⟨off, v, rest, hh, e⟩ | ⟨off, rest, hh, e⟩ |
    ⟨rest, hh, hb, e⟩ | ⟨rest, hh, hb, e⟩ | ⟨a, b, rest, hh, e⟩
  · rw [e] at h; cases h; exact .hostDone ht hn
  · rw [e] at h; cases h
  · rw [e] at h
    rcases regWrite_cases off v (popOp s rest) with ⟨h0, i, hd, e⟩ | ⟨h0, ⟨y, hd⟩, e⟩ | ⟨h0, e⟩ | ⟨h0, e⟩ | ⟨h0, e⟩ | ⟨h0, e⟩ | e
    · subst h0
      rcases exec_cases i (popOp s rest) with ⟨hi, e2⟩ | ⟨hi, rfl, e2⟩ | ⟨hi, rfl, e2⟩ | ⟨hi, rfl, hv, hr, e2⟩ |
        ⟨hi, rfl, hv, hr, e2⟩ | ⟨hi, hc, hv, e2⟩ | ⟨hi, rfl, hv, e2⟩
      all_goals
        have h' := (e.trans e2).symm.trans h
        cases h'
      · exact .busy v rest ht hh hi
      · exact .nop v rest ht hh hi hd
      · exact .build v rest ht hh hi hd
      · exact .compute v rest ht hh hi hd hv hr
      · exact .range v rest ht hh hi hd hv hr
      · exact .noTable v rest ht hh hi (hc.imp (fun x => by rw [hd, x]) (fun x => by rw [hd, x])) hv
      · exact .rdtab v rest ht hh hi hd hv
    · subst h0
      rcases issueIllegal_cases (popOp s rest) with ⟨hi, e2⟩ | ⟨hi, e2⟩
      all_goals
        have h' := (e.trans e2).symm.trans h
        cases h'
      · exact .busy v rest ht hh hi
      · exact .illegal v rest y ht hh hi hd
    all_goals
      have h' := e.symm.trans h
      cases h'
    · exact .setTidx v rest ht (h0 ▸ hh)
    · exact .setCrcIn v rest ht (h0 ▸ hh)
    · exact .setAddr v rest ht (h0 ▸ hh)
    · exact .setLen v rest ht (h0 ▸ hh)
    · exact .ignored off v rest ht hh
  · rw [e] at h; cases h; exact .read off rest ht hh
  · rw [e] at h; cases h; exact .pollBusy rest ht hh hb
  · rw [e] at h; cases h; exact .pollDone rest ht hh hb
  · rw [e] at h
    by_cases hi : a < memSize s
    · have e2 : hostStore a b { popTurn s with host := rest } = _ := hostStore_inside hi
      rw [e2] at h; cases h; exact .store a b rest ht hh hi
    · have e2 : hostStore a b { popTurn s with host := rest } = _ := hostStore_outside hi
      rw [e2] at h; cases h

theorem engineStep_happens {s t : State} (ht : turnOf s = .engine) (h : engineStep (popTurn s) = .next t) :
    Happens s t := by
  cases ho : s.op
  · have e : engineStep (popTurn s) = .next (popTurn s) := by simp [engineStep, enabledStep, popTurn, ho]
    rw [e] at h; cases h; exact .engineIdle ht ho
  · have e : engineStep (popTurn s) = .next (buildDone (popTurn s)) := by
      simp [engineStep, enabledStep, popTurn, ho]
    rw [e] at h; cases h; exact .buildDone ht ho
  · by_cases h0 : s.rem = 0
    · have e : engineStep (popTurn s) = .next (finish (popTurn s)) := by
        simp [engineStep, enabledStep, popTurn, ho, h0]
      rw [e] at h; cases h; exact .finish ht ho h0
    · rw [engineStep_reads (s := popTurn s) ho h0] at h
      rcases bufferStep_cases (nextSize s) (popTurn s) with ⟨-, e⟩ | ⟨h1, h2, e⟩ | ⟨h1, h2, e⟩
      · have := e.symm.trans h; cases this
      · have := e.symm.trans h; cases this; exact .abort ht ho h0 h1 h2
      · have := e.symm.trans h; cases this; exact .data ht ho h0 h1 h2

/-- The inversion lemma of `step`. -/
theorem step_happens {s t : State} (h : step s = .next t) : Happens s t := by
  rw [step_eq] at h
  cases ht : turnOf s with
  | host => rw [ht] at h; exact hostStep_happens ht h
  | engine => rw [ht] at h; exact engineStep_happens ht h
  | reset => rw [ht] at h; cases h; exact .reset ht
  | bus rs => rw [ht] at h; cases h; exact .bus rs ht

end Sys2Proof.Machine
end

