-- ==== Sys2Proof/Laws/Memory.lean ====
section
/-! SUPPORT. Buffer memory: a read after a write, and the canonical form kept by every write (rules R50, R66). -/

namespace Sys2Proof.Machine

theorem memory_wf_nil : Memory.wf [] := ⟨List.Pairwise.nil, by simp⟩

theorem reset_memory_wf : Memory.wf State.reset.mem := memory_wf_nil

theorem memory_wf_tail {c : Host.Cell} {m : Memory} (h : Memory.wf (c :: m)) : Memory.wf m :=
  ⟨(List.pairwise_cons.mp h.1).2, fun d hd => h.2 d (List.mem_cons_of_mem _ hd)⟩

/-- Below the first listed address everything reads blank. -/
theorem memory_read_below (m : Memory) (a : Nat) (h : ∀ c ∈ m, a < c.1) : m.read a = blankByte := by
  induction m with
  | nil => rfl
  | cons c m ih =>
    obtain ⟨k, v⟩ := c
    have hk : a < k := h (k, v) (by simp)
    have hne : ¬ k = a := by omega
    simp only [Memory.read, if_neg hne]
    exact ih fun d hd => h d (List.mem_cons_of_mem _ hd)

theorem memory_mem_write (m : Memory) (a : Nat) (b : Byte) (c : Host.Cell) (h : c ∈ m.write a b) :
    c ∈ m ∨ c = (a, b) ∧ b ≠ blankByte := by
  induction m with
  | nil =>
    simp only [Memory.write] at h
    split at h <;> simp_all
  | cons d m ih =>
    obtain ⟨k, v⟩ := d
    simp only [Memory.write] at h
    split at h
    · split at h
      · exact .inl h
      · rename_i hb
        rcases List.mem_cons.mp h with h | h
        · exact .inr ⟨h, hb⟩
        · exact .inl h
    · split at h
      · split at h
        · exact .inl (List.mem_cons_of_mem _ h)
        · rename_i hb
          rcases List.mem_cons.mp h with h | h
          · exact .inr ⟨h, hb⟩
          · exact .inl (List.mem_cons_of_mem _ h)
      · rcases List.mem_cons.mp h with h | h
        · simp [h]
        · rcases ih h with h | h <;> simp [h]

/-- A write keeps the canonical form. -/
theorem memory_wf_write (m : Memory) (a : Nat) (b : Byte) (h : Memory.wf m) : Memory.wf (m.write a b) := by
  induction m with
  | nil =>
    simp only [Memory.write]
    split <;> rename_i hb
    · exact h
    · exact ⟨List.pairwise_singleton _ _, by simpa using hb⟩
  | cons c m ih =>
    obtain ⟨k, v⟩ := c
    have hm := memory_wf_tail h
    have hk : ∀ d ∈ m, k < d.1 := (List.pairwise_cons.mp h.1).1
    have hv : v ≠ blankByte := h.2 (k, v) (by simp)
    simp only [Memory.write]
    split
    · rename_i hak
      split
      · exact h
      · rename_i hb
        refine ⟨List.pairwise_cons.mpr ⟨?_, h.1⟩, ?_⟩
        · intro d hd
          rcases List.mem_cons.mp hd with hd | hd
          · simpa [hd] using hak
          · exact Nat.lt_trans hak (hk d hd)
        · intro d hd
          rcases List.mem_cons.mp hd with hd | hd
          · simpa [hd] using hb
          · exact h.2 d hd
    · split
      · rename_i hak
        split
        · exact hm
        · rename_i hb
          refine ⟨List.pairwise_cons.mpr ⟨?_, hm.1⟩, ?_⟩
          · intro d hd
            simpa [hak] using hk d hd
          · intro d hd
            rcases List.mem_cons.mp hd with hd | hd
            · simpa [hd] using hb
            · exact hm.2 d hd
      · rename_i h1 h2
        have iw := ih hm
        refine ⟨List.pairwise_cons.mpr ⟨?_, iw.1⟩, ?_⟩
        · intro d hd
          rcases memory_mem_write m a b d hd with hd | ⟨hd, -⟩
          · exact hk d hd
          · subst hd
            show k < a
            omega
        · intro d hd
          rcases List.mem_cons.mp hd with hd | hd
          · simpa [hd] using hv
          · exact iw.2 d hd

/-- A read after a write: the byte written at its address, and what was there at every other. -/
theorem memory_read_write (m : Memory) (a x : Nat) (b : Byte) (h : Memory.wf m) :
    (m.write a b).read x = if x = a then b else m.read x := by
  induction m with
  | nil =>
    simp only [Memory.write]
    split <;> rename_i hb
    · simp [Memory.read, hb]
    · simp only [Memory.read]
      by_cases hx : a = x
      · simp [hx]
      · simp [hx, Ne.symm hx]
  | cons c m ih =>
    obtain ⟨k, v⟩ := c
    have hm := memory_wf_tail h
    have hk : ∀ d ∈ m, k < d.1 := (List.pairwise_cons.mp h.1).1
    simp only [Memory.write]
    split
    · rename_i hak
      split <;> rename_i hb
      · split
        · rename_i hx
          subst hx
          rw [hb]
          exact memory_read_below _ _ (by
            intro d hd
            rcases List.mem_cons.mp hd with hd | hd
            · simpa [hd] using hak
            · exact Nat.lt_trans hak (hk d hd))
        · rfl
      · simp only [Memory.read]
        by_cases hx : a = x
        · simp [hx]
        · simp [hx, Ne.symm hx]
    · split
      · rename_i hak
        subst hak
        split <;> rename_i hb
        · split
          · rename_i hx
            rw [hx, hb]
            exact memory_read_below _ _ hk
          · rename_i hx
            simp [Memory.read, Ne.symm hx]
        · simp only [Memory.read]
          by_cases hx : a = x
          · simp [hx]
          · simp [hx, Ne.symm hx]
      · rename_i h1 h2
        simp only [Memory.read]
        split
        · rename_i hx
          subst hx
          simp [Ne.symm h2]
        · exact ih hm

/-- A write inside a bound keeps every address inside it. -/
theorem memory_inside_write (m : Memory) (a n : Nat) (b : Byte) (h : ∀ c ∈ m, c.1 < n) (ha : a < n) :
    ∀ c ∈ m.write a b, c.1 < n := by
  intro c hc
  rcases memory_mem_write m a b c hc with hc | ⟨hc, -⟩
  · exact h c hc
  · simpa [hc] using ha

end Sys2Proof.Machine
end

