-- ==== Sys2Proof/Laws/Runs.lean ====
section
/-! SUPPORT. Runs in which every turn is the engine's, one step at a time, and the plan of reads of a COMPUTE taken
apart read by read (rules R121, R129). -/

namespace Sys2Proof.Machine

/-- The width of the first read over `n` bytes at `a` (rule R121). -/
def sizeAt (a n : Nat) : ReadSize := if a % 8 ≠ 0 ∨ n < 8 then .byte else .word

theorem nextSize_eq (s : State) : nextSize s = sizeAt s.cur s.rem := rfl

theorem readPlan_zero (a : Nat) : readPlan a 0 = [] := by
  simp [readPlan, headLen, bodyLen, tailLen]

/-- The plan is its first read, then the plan of the bytes after it. -/
theorem readPlan_cons (a n : Nat) (h : n ≠ 0) :
    readPlan a n = ⟨a, sizeAt a n⟩ :: readPlan (a + (sizeAt a n).bytes) (n - (sizeAt a n).bytes) := by
  by_cases h1 : a % 8 ≠ 0
  · have hs : sizeAt a n = .byte := by simp [sizeAt, h1]
    have hh : headLen a n = headLen (a+1) (n-1) + 1 := by simp only [headLen]; omega
    have hb : bodyLen a n = bodyLen (a+1) (n-1) := by simp only [bodyLen, headLen]; omega
    have ht : tailLen a n = tailLen (a+1) (n-1) := by simp only [tailLen, headLen]; omega
    simp only [hs, ReadSize.bytes, readPlan]
    rw [hh, hb, ht, List.range_succ_eq_map]
    simp only [List.map_cons, List.map_map, List.cons_append, Nat.add_zero]
    have e1 : (fun i => (⟨a + (i + 1), .byte⟩ : ReadReq)) = fun i => ⟨a + 1 + i, .byte⟩ := by
      funext i; congr 1; omega
    have e2 : ∀ i, a + (headLen (a+1) (n-1) + 1) + i = a + 1 + headLen (a+1) (n-1) + i := fun i => by omega
    simp only [Function.comp_def, Nat.succ_eq_add_one, e1, e2]
  · by_cases h2 : n < 8
    · have hs : sizeAt a n = .byte := by simp [sizeAt, h2]
      have hh : headLen a n = 0 := by simp only [headLen]; omega
      have hb : bodyLen a n = 0 := by simp only [bodyLen, headLen]; omega
      have ht : tailLen a n = n := by simp only [tailLen, headLen]; omega
      have hh' : headLen (a+1) (n-1) = n-1 := by simp only [headLen]; omega
      have hb' : bodyLen (a+1) (n-1) = 0 := by simp only [bodyLen, headLen]; omega
      have ht' : tailLen (a+1) (n-1) = 0 := by simp only [tailLen, headLen]; omega
      simp only [hs, ReadSize.bytes, readPlan]
      rw [hh, hb, ht, hh', hb', ht']
      obtain ⟨m, rfl⟩ : ∃ m, n = m + 1 := ⟨n - 1, by omega⟩
      rw [List.range_succ_eq_map]
      have e1 : (fun i => (⟨a + (i + 1), .byte⟩ : ReadReq)) = fun i => ⟨a + 1 + i, .byte⟩ := by
        funext i; congr 1; omega
      simp [Function.comp_def, e1]
    · have hs : sizeAt a n = .word := by simp only [sizeAt]; rw [if_neg (by omega)]
      have hh : headLen a n = 0 := by simp only [headLen]; omega
      have hh' : headLen (a+8) (n-8) = 0 := by simp only [headLen]; omega
      have hb : bodyLen a n = bodyLen (a+8) (n-8) + 1 := by simp only [bodyLen, headLen]; omega
      have ht : tailLen a n = tailLen (a+8) (n-8) := by simp only [tailLen, headLen]; omega
      simp only [hs, ReadSize.bytes, readPlan]
      rw [hh, hb, ht, hh', List.range_succ_eq_map]
      have e1 : ∀ i, a + 8 * (i + 1) = a + 8 + 8 * i := fun i => by omega
      simp [Function.comp_def, e1]

theorem stepCount_eq (a n : Nat) : stepCount a n = (readPlan a n).length + 1 := by
  simp [stepCount, readPlan]; omega

theorem engineRun_succ (k : Nat) (s : State) : engineRun (k+1) s =
    match engineStep { s with sched := List.replicate k .engine } with
    | .next t => run k t
    | .fault r => .fault r
    | .refused r => .refused r := by
  simp only [engineRun, run, List.replicate_succ]
  rw [step_turn, runTurn_engine]
  rfl

/-- A step whose read MEM answers with data, at the head of an engine run. -/
theorem engineRun_data (k : Nat) {s : State} (ho : s.op = .computing) (h0 : s.rem ≠ 0)
    (hr : s.cur + (nextSize s).bytes ≤ memSize s) (hf : busFaulted s.busFaults s.cur (nextSize s) = false) :
    engineRun (k+1) s = engineRun k { s with
      acc := combine (nextSize s) s.cfg.endian s.table s.acc
        ((List.range (nextSize s).bytes).map fun i => raceRead s (s.cur + i) (s.draws + i))
      cur := s.cur + (nextSize s).bytes
      rem := s.rem - (nextSize s).bytes
      reads := ⟨s.cur, nextSize s⟩ :: s.reads
      draws := s.draws + (nextSize s).bytes } := by
  rw [engineRun_succ, engineStep_reads (s := { s with sched := List.replicate k .engine }) ho h0]
  change (match bufferStep (nextSize s) { s with sched := List.replicate k .engine } with
    | .next t => run k t
    | .fault r => .fault r
    | .refused r => .refused r) = _
  rw [bufferStep_data (s := { s with sched := List.replicate k .engine }) hr hf]
  rfl

/-- A step whose read MEM answers with fault, at the head of an engine run. -/
theorem engineRun_fault (k : Nat) {s : State} (ho : s.op = .computing) (h0 : s.rem ≠ 0)
    (hr : s.cur + (nextSize s).bytes ≤ memSize s) (hf : busFaulted s.busFaults s.cur (nextSize s) = true) :
    engineRun (k+1) s =
      run k (abort s.cur (noteRead { s with sched := List.replicate k .engine } s.cur (nextSize s))) := by
  rw [engineRun_succ, engineStep_reads (s := { s with sched := List.replicate k .engine }) ho h0]
  change (match bufferStep (nextSize s) { s with sched := List.replicate k .engine } with
    | .next t => run k t
    | .fault r => .fault r
    | .refused r => .refused r) = _
  rw [bufferStep_fault (s := { s with sched := List.replicate k .engine }) hr hf]

/-- FINISH at the head of an engine run. -/
theorem engineRun_finish (k : Nat) {s : State} (ho : s.op = .computing) (h0 : s.rem = 0) :
    engineRun (k+1) s = run k (finish { s with sched := List.replicate k .engine }) := by
  rw [engineRun_succ]
  have : engineStep { s with sched := List.replicate k .engine } = .next (finish { s with sched := List.replicate k .engine }) := by
    simp [engineStep, enabledStep, ho, h0]
  rw [this]

/-- The engine does nothing while IDLE (rule R212). -/
theorem run_idle (k : Nat) : ∀ s : State, s.op = .idle → s.sched = List.replicate k .engine → run k s = .next { s with sched := [] } := by
  induction k with
  | zero => intro s _ hs; simp only [List.replicate_zero] at hs; cases s; simp_all [run]
  | succ k ih =>
    intro s ho hs
    have e : step s = .next { s with sched := List.replicate k .engine } := by
      rw [step_eq, turnOf, hs]
      simp [List.replicate_succ, engineStep, enabledStep, ho]
    simp only [run, e]
    exact ih { s with sched := List.replicate k .engine } ho rfl

theorem bytesAt_append (m : Memory) (a n k : Nat) : bytesAt m a (n + k) = bytesAt m a n ++ bytesAt m (a + n) k := by
  simp only [bytesAt, List.range_add, List.map_append, List.map_map]
  congr 1
  apply List.map_congr_left
  intro i _
  simp [Nat.add_assoc]

theorem bytesAt_congr {m m' : Memory} {a n : Nat} (h : ∀ x, a ≤ x → x < a + n → m'.read x = m.read x) : bytesAt m' a n = bytesAt m a n := by
  simp only [bytesAt]
  apply List.map_congr_left
  intro i hi
  rw [List.mem_range] at hi
  exact h _ (by omega) (by omega)

theorem racedValues_cons_ne (a : Nat) (b : Byte) (cs : List Host.Cell) (x : Nat) (h : a ≠ x) : racedValues ((a, b) :: cs) x = racedValues cs x := by
  simp [racedValues, h]

end Sys2Proof.Machine
end

