-- ==== Sys2Proof/Tests/Slice0.lean ====
section
/-! SUPPORT. Tests. Expected values are the worked examples of the rules and the vectors of spec/95_test_vectors.md, named
`V-…` as there; the decoded words are written out from rules R70 to R72. The last part shows, for every statement with
hypotheses, operands that meet them. -/

namespace Sys2Proof.Tests

open Sys2Proof Sys2Proof.Machine

/-! Small states -/

/-- The test instance with ENDIAN = BE. -/
def beConfig : Config := { testConfig with endian := .be }

/-- The counterexample instance of 95_test_vectors.md section 4. -/
def badConfig : Config := configOf .le (fun c bs => testCrcFn c bs ^^^ 1) 64

/-- Idle after a completed BUILD. -/
def built (c : Config) : State := { State.resetOf c with tvalid := true, table := storedTable c }

/-- BUILDING, from reset. -/
def building (c : Config) : State := { State.resetOf c with op := .building }

/-- The bytes "123456789" at 0x1000 (programs P1 and P4). -/
def digits : Memory :=
  [(0x1000, 0x31), (0x1001, 0x32), (0x1002, 0x33), (0x1003, 0x34), (0x1004, 0x35), (0x1005, 0x36), (0x1006, 0x37),
    (0x1007, 0x38), (0x1008, 0x39)]

/-- COMPUTING over those bytes. -/
def computing (c : Config) (acc : Word) (cur rem : Nat) : State :=
  { built c with op := .computing, acc := acc, cur := cur, rem := rem, mem := digits }

/-- MEM answers fault to every read that touches an address at or above 0x3008 (V-F3, V-F4). -/
def faultAt3008 : List FaultRegion := [⟨0x3008, 2 ^ 64 - 0x3008, true, true⟩]

def statusAfter : Out → Option Word
  | .next t => some (statusWord t)
  | _ => none

def fieldAfter (f : State → Word) : Out → Option Word
  | .next t => some (f t)
  | _ => none

def stops : Out → Bool
  | .next _ => false
  | _ => true

/-! Ill-formed syntax is refused -/

theorem test_wf_op : CmdWord.wf ⟨4, 0⟩ = false := by decide

theorem test_wf_rsvd : CmdWord.wf ⟨0, 1⟩ = false := by decide

theorem test_wf_access_width : accessWf 0x10 32 = false := by decide

theorem test_wf_access_alignment : accessWf 0x14 64 = false := by decide

theorem test_wf_access_window : accessWf 0x80 64 = false := by decide

theorem test_wf_write : HostOp.wf 16 (.write 0x4 64 0) = false := by decide

theorem test_wf_read : HostOp.wf 16 (.read 0x80 64) = false := by decide

theorem test_wf_store : HostOp.wf 16 (.store 16 0) = false := by decide

theorem test_wf_good : HostOp.wf 16 (.store 15 0) = true ∧ HostOp.wf 16 (.write 0x78 64 0) = true ∧
    HostOp.wf 16 .poll = true ∧ CmdWord.wf ⟨3, 0⟩ = true ∧ Instr.wf .compute = true := by decide

/-! Decoding: OP in bits 3..0, RSVD in bits 63..4 (rules R70 to R72) -/

theorem test_decode_nop :
    decode 0b0000000000000000000000000000000000000000000000000000000000000000#64 = .cmd .nop := by decide

theorem test_decode_build :
    decode 0b0000000000000000000000000000000000000000000000000000000000000001#64 = .cmd .build := by decide

theorem test_decode_compute :
    decode 0b0000000000000000000000000000000000000000000000000000000000000010#64 = .cmd .compute := by decide

theorem test_decode_rdtab :
    decode 0b0000000000000000000000000000000000000000000000000000000000000011#64 = .cmd .rdtab := by decide

theorem test_decode_reserved_op : decode 0xF#64 = .illegal (.reservedOp 0xF) := by decide

theorem test_decode_reserved_bit_4 : decode 0x10#64 = .illegal .reservedBits := by decide

theorem test_decode_reserved_bit_63 : decode 0x8000000000000002#64 = .illegal .reservedBits := by decide

theorem test_fetch_runs_first : statusAfter (step (State.reset.withFetchWord 64 0x1)) = some 0x1 := by decide +kernel

/-! Registers (rules R20, R22, R32) -/

theorem test_offsets : ([.cmd, .status, .crcIn, .addr, .len, .crcOut, .tidx, .tdata, .errAddr] : List RegName).map
    (fun r => regAt (offsetOf r)) =
    [some .cmd, some .status, some .crcIn, some .addr, some .len, some .crcOut, some .tidx, some .tdata,
      some .errAddr] := by decide

/-- V-R1. -/
theorem test_tidx_warl : fieldAfter (regRead 0x30) (regWrite 0x30 0xfffffffffffff701 State.reset) = some 0x701 := by
  decide +kernel

/-- V-R4. -/
theorem test_unmapped : fieldAfter (regRead 0x48) (regWrite 0x48 0x5 State.reset) = some 0 := by decide +kernel

/-- V-R7. -/
theorem test_reset_status : statusAfter (step { computing beConfig 5 0x1000 9 with sched := [.reset], err := 2 }) = some 0x4 := by
  decide +kernel

/-- Rule R12's example. -/
theorem test_rev8 : rev8 0x0123456789abcdef = 0xefcdab8967452301 := by decide

/-! NOP and the errors of command issue -/

/-- V-E20. -/
theorem test_nop_clears : statusAfter (regWrite 0x00 0x0 { built testConfig with err := 3 }) = some 0x2 := by
  decide +kernel

/-- V-E8. -/
theorem test_nop_busy : statusAfter (regWrite 0x00 0x0 (computing testConfig 0 0x1000 9)) = some 0x23 := by
  decide +kernel

/-- V-E3, V-E5, V-E6. -/
theorem test_illegal : statusAfter (regWrite 0x00 0x10 State.reset) = some 0x10 ∧
    statusAfter (regWrite 0x00 0x8000000000000002 (built testConfig)) = some 0x12 ∧
    statusAfter (regWrite 0x00 0x12 State.reset) = some 0x10 := by decide +kernel

/-- V-E7. -/
theorem test_busy_outranks_illegal : statusAfter (regWrite 0x00 0x7 (building testConfig)) = some 0x21 := by
  decide +kernel

/-! BUILD -/

/-- V-T1, V-T2. -/
theorem test_build_status : statusAfter (regWrite 0x00 0x1 State.reset) = some 0x1 ∧
    statusAfter (regWrite 0x00 0x1 (State.resetOf beConfig)) = some 0x5 := by decide +kernel

/-- V-T3, and the example of rule R104. -/
theorem test_build_done : statusAfter (engineStep (building testConfig)) = some 0x2 ∧
    fieldAfter (fun t => lookup t.table 7 0x01) (engineStep (building testConfig)) = some 0x381d0015c96f4444 ∧
    fieldAfter (fun t => lookup t.table 7 0x01) (engineStep (building beConfig)) = some 0x44446fc915001d38 := by
  decide +kernel

/-! COMPUTE -/

/-- V-A2, and V-E11, V-E13 against V-E12, V-E14. -/
theorem test_compute_accepts :
    fieldAfter State.acc (exec .compute { built beConfig with crcIn := 0x0123456789abcdef }) = some 0xefcdab8967452301 ∧
    statusAfter (exec .compute { built testConfig with addr := 0x1, len := 0xffffffffffffffff }) = some 0x3 ∧
    statusAfter (exec .compute { built testConfig with addr := 0xfffffffffffffffc, len := 4 }) = some 0x3 := by
  decide +kernel

/-- V-E9, V-E14, V-E18, V-E19. -/
theorem test_compute_rejects :
    statusAfter (exec .compute { State.reset with addr := 0xfffffffffffffffe, len := 4 }) = some 0x30 ∧
    statusAfter (exec .compute { built testConfig with addr := 0x2, len := 0xffffffffffffffff }) = some 0x42 ∧
    statusAfter (exec .compute { built { testConfig with addrW := 16 } with addr := 0x10000, len := 0 }) = some 0x3 ∧
    statusAfter (exec .compute { built { testConfig with addrW := 16 } with addr := 0x10000, len := 1 }) = some 0x42 := by
  decide +kernel

/-- V-B5, both byte orders. -/
theorem test_byte_step :
    byteStep .le (storedTable testConfig) 0x0123456789abcdef 0x00 = 0x54be0c3900db4364 ∧
    byteStep .be (storedTable beConfig) 0xefcdab8967452301 0x00 = 0x6443db00390cbe54 := by decide +kernel

/-- V-W6, both byte orders, as an engine step. -/
theorem test_word_step :
    fieldAfter State.acc (engineStep (computing testConfig 0 0x1000 9)) = some 0x49ec20b315e86dc2 ∧
    fieldAfter State.acc (engineStep (computing beConfig 0 0x1000 9)) = some 0xc26de815b320ec49 := by decide +kernel

/-- The last two steps of program P1, in either byte order. -/
theorem test_last_byte_and_finish :
    fieldAfter State.acc (engineStep (computing testConfig 0x49ec20b315e86dc2 0x1008 1)) = some 0xe9c6d914c4b8d9ca ∧
    fieldAfter State.crcOut (engineStep (computing testConfig 0xe9c6d914c4b8d9ca 0x1009 0)) = some 0xe9c6d914c4b8d9ca ∧
    fieldAfter State.crcOut (engineStep (computing beConfig 0xcad9b8c414d9c6e9 0x1009 0)) = some 0xe9c6d914c4b8d9ca := by
  decide +kernel

/-- The second steps of V-F3 and the fourth of V-F4. -/
theorem test_abort :
    statusAfter (engineStep { computing testConfig 0 0x3008 8 with busFaults := faultAt3008 }) = some 0x52 ∧
    fieldAfter State.errAddr (engineStep { computing testConfig 0 0x3008 8 with busFaults := faultAt3008 }) =
      some 0x3008 ∧
    fieldAfter State.errAddr (engineStep { computing testConfig 0 0x3008 5 with busFaults := faultAt3008 }) =
      some 0x3008 := by decide +kernel

/-- V-N1 and V-N2: without P_lin a word step is not eight byte steps. -/
theorem test_counterexample :
    wordStep .le (storedTable badConfig) 0 (List.replicate 8 0) = 0xd967998c86d1832b ∧
    logicalFold badConfig 0 (List.replicate 8 0) = 0x3ff27d9bea0eac11 := by decide +kernel

/-- Section 3.5 of the vectors: ADDR mod 8 = 7, LEN = 9, and ADDR mod 8 = 1, LEN = 8. -/
theorem test_phases : (headLen 7 9, bodyLen 7 9, tailLen 7 9) = (1, 1, 0) ∧
    (headLen 1 8, bodyLen 1 8, tailLen 1 8) = (7, 0, 1) := by decide

/-! RDTAB -/

/-- V-E21, and the example of rule R164 for BE. -/
theorem test_rdtab :
    fieldAfter State.tdata (exec .rdtab { built testConfig with tidx := 0x701, err := 5 }) = some 0x381d0015c96f4444 ∧
    fieldAfter State.tdata (exec .rdtab { built beConfig with tidx := 0x701 }) = some 0x44446fc915001d38 := by
  decide +kernel

/-- V-E2. -/
theorem test_rdtab_no_table : statusAfter (exec .rdtab State.reset) = some 0x30 := by decide +kernel

/-! Host stores and the interface's limits (rules R35, R50, R213 step 3) -/

/-- A store while BUILDING takes effect, and its neighbour is as before. -/
theorem test_store_while_building :
    fieldAfter (fun t => zext64 (t.mem.read 0x1001) <<< 8 ^^^ zext64 (t.mem.read 0x1000))
      (step { building testConfig with mem := digits, sched := [.host], host := [.store 0x1000 0x7f] }) =
      some 0x327f := by decide +kernel

theorem test_refusals :
    stops (step { State.reset with host := [.write 0x10 32 1] }) = true ∧
    stops (step { State.reset with host := [.read 0x14 64] }) = true ∧
    stops (step { State.reset with host := [.read 0x80 64] }) = true ∧
    stops (step { State.resetOf { testConfig with addrW := 4 } with host := [.store 16 1] }) = true ∧
    stops (step { State.resetOf { testConfig with addrW := 4 } with host := [.store 15 1] }) = false := by
  decide +kernel

/-! Operands that meet the hypotheses of each statement, named `test_hyp_` and the statement's name -/

theorem built_inv (c : Config) (h : c.wf) : Inv (built c) :=
  ⟨h, memory_wf_nil, nofun, (by show (0 : BitVec 4).toNat ≤ 5; decide),
    (by show (0 : Word).toNat < 2 ^ 11; decide), fun _ => rfl, nofun, nofun, nofun, nofun⟩

theorem building_inv (c : Config) (h : c.wf) : Inv (building c) :=
  ⟨h, memory_wf_nil, nofun, (by show (0 : BitVec 4).toNat ≤ 5; decide),
    (by show (0 : Word).toNat < 2 ^ 11; decide), nofun, fun _ => rfl, nofun, nofun, nofun⟩

theorem digits_canonical : Memory.wf digits := by decide +kernel

theorem digits_inside (c : Config) (h : c.addrW = 64) : ∀ x ∈ digits, x.1 < 2 ^ c.addrW := by
  rw [h]
  decide +kernel

theorem computing_inv (c : Config) (acc : Word) (a n : Nat) (h : c.addrW = 64) (hn : n = 0 ∨ a + n ≤ 2 ^ 64)
    (h64 : n < 2 ^ 64) : Inv (computing c acc a n) := by
  refine ⟨?_, digits_canonical, digits_inside c h, (by show (0 : BitVec 4).toNat ≤ 5; decide),
    (by show (0 : Word).toNat < 2 ^ 11; decide), fun _ => rfl, nofun, fun _ => rfl, fun _ => ?_,
    fun _ => h64⟩
  · show 1 ≤ c.addrW ∧ c.addrW ≤ 64
    omega
  · show n = 0 ∨ a + n ≤ 2 ^ c.addrW
    rw [h]
    exact hn

theorem test_hyp_ResetMeetsInvariant :
    Config.wf { testConfig with addrW := 1 } ∧ Config.wf { testConfig with addrW := 64 } := by decide

theorem test_hyp_LegalWordsAreExactlyFour :
    (0x4#64 ≠ 0x0#64 ∧ 0x4#64 ≠ 0x1#64 ∧ 0x4#64 ≠ 0x2#64 ∧ 0x4#64 ≠ 0x3#64) ∧
    (0x8000000000000002#64 ≠ 0x0#64 ∧ 0x8000000000000002#64 ≠ 0x1#64 ∧ 0x8000000000000002#64 ≠ 0x2#64 ∧
      0x8000000000000002#64 ≠ 0x3#64) := by decide

theorem test_hyp_StepRunsTheDecodedCommand : decode 0x2#64 = .cmd .compute ∧ (built testConfig).op = .idle :=
  ⟨rfl, rfl⟩

/-- Also for the statements about NOP and BUILD. -/
theorem test_hyp_IllegalWordOnlySetsErr : State.reset.op = .idle ∧ (0x4#64 ≠ 0x0#64 ∧ 0x4#64 ≠ 0x1#64 ∧ 0x4#64 ≠ 0x2#64 ∧
    0x4#64 ≠ 0x3#64) := by decide

theorem test_hyp_BusyRejectsEveryWord : (building testConfig).op ≠ .idle ∧ (computing testConfig 0 0 0).op ≠ .idle := by
  decide

theorem test_hyp_NoTableAndRangeRejections :
    (State.reset.op = .idle ∧ State.reset.tvalid = false) ∧
    (let s := { built testConfig with addr := 0x2, len := 0xffffffffffffffff }
     s.op = .idle ∧ s.tvalid = true ∧ s.len ≠ 0 ∧ s.addr.toNat + s.len.toNat > 2 ^ s.cfg.addrW) ∧
    (let s := { built testConfig with addr := 0x1, len := 0xffffffffffffffff }
     s.op = .idle ∧ s.tvalid = true ∧ (s.len = 0 ∨ s.addr.toNat + s.len.toNat ≤ 2 ^ s.cfg.addrW)) ∧
    (let s := { built testConfig with addr := 0xffffffffffffffff, len := 0 }
     s.op = .idle ∧ s.tvalid = true ∧ (s.len = 0 ∨ s.addr.toNat + s.len.toNat ≤ 2 ^ s.cfg.addrW)) := by decide +kernel

/-- Also for the statements about RDTAB and COMPUTE of length 0. -/
theorem test_hyp_ComputeLatchesItsOperands :
    (built testConfig).op = .idle ∧ (built testConfig).tvalid = true ∧ (built testConfig).len = 0 := by decide

theorem test_hyp_RegisterReadHasNoSideEffect : 0x78 % 8 = 0 ∧ 0x78 < 0x80 := by decide

theorem test_hyp_AccessesOutsideTheInterfaceAreRefused :
    (32 ≠ 64 ∧ 0x7c % 8 ≠ 0 ∧ 0x80 ≤ 0x80) ∧ 0x78 % 8 = 0 ∧ 0x78 < 0x80 := by decide

theorem test_hyp_PollEndsAtBusyClear : (building testConfig).op ≠ .idle ∧ (built testConfig).op = .idle := by decide

theorem test_hyp_StepSelection :
    (∀ p ∈ [(0x1000, 0), (0x1001, 8), (0x1000, 7), (0x1000, 8)], (computing testConfig 0 p.1 p.2).op = .computing) ∧
    0x1001 % 8 ≠ 0 ∧ 7 < 8 ∧ 0x1000 % 8 = 0 ∧ 8 ≤ 8 := by decide

theorem test_hyp_BuildDoneWritesTheTable : (building testConfig).op = .building ∧ (building beConfig).op = .building := by
  decide

theorem test_hyp_ByteStepLittleEndian : ∀ p ∈ [(0x1001, 8), (0x1008, 1), (0xffffffffffffffff, 1)],
    let s := computing testConfig 0 p.1 p.2
    s.cfg.endian = .le ∧ s.op = .computing ∧ s.rem ≠ 0 ∧ (s.cur % 8 ≠ 0 ∨ s.rem < 8) ∧ s.cur < memSize s ∧
      busFaulted s.busFaults s.cur .byte = false := by decide +kernel

theorem test_hyp_ByteStepBigEndian : ∀ p ∈ [(0x1001, 8), (0x1008, 1), (0xffffffffffffffff, 1)],
    let s := computing beConfig 0 p.1 p.2
    s.cfg.endian = .be ∧ s.op = .computing ∧ s.rem ≠ 0 ∧ (s.cur % 8 ≠ 0 ∨ s.rem < 8) ∧ s.cur < memSize s ∧
      busFaulted s.busFaults s.cur .byte = false := by decide +kernel

theorem test_hyp_WordStepLittleEndian : ∀ a ∈ [0x1000, 0xfffffffffffffff8],
    let s := computing testConfig 0 a 8
    s.cfg.endian = .le ∧ s.op = .computing ∧ s.cur % 8 = 0 ∧ 8 ≤ s.rem ∧ s.cur + 8 ≤ memSize s ∧
      busFaulted s.busFaults s.cur .word = false := by decide +kernel

theorem test_hyp_WordStepBigEndian : ∀ a ∈ [0x1000, 0xfffffffffffffff8],
    let s := computing beConfig 0 a 8
    s.cfg.endian = .be ∧ s.op = .computing ∧ s.cur % 8 = 0 ∧ 8 ≤ s.rem ∧ s.cur + 8 ≤ memSize s ∧
      busFaulted s.busFaults s.cur .word = false := by decide +kernel

theorem test_hyp_FinishWritesCrcOut :
    (computing testConfig 5 0x1009 0).op = .computing ∧ (computing testConfig 5 0x1009 0).rem = 0 := by decide

/-- A byte and a word read that MEM answers with fault. Also for the statement on the cursor's arithmetic. -/
theorem test_hyp_AbortOnBusFault : ∀ n ∈ [5, 8],
    let s := { computing testConfig 0 0x3008 n with busFaults := faultAt3008 }
    Inv s ∧ s.op = .computing ∧ s.rem ≠ 0 ∧
      busFaulted s.busFaults s.cur (if s.cur % 8 ≠ 0 ∨ s.rem < 8 then .byte else .word) = true := by
  intro n hn
  have h : n = 5 ∨ n = 8 := by simpa using hn
  have e := computing_inv testConfig 0 0x3008 n rfl (.inr (by omega)) (by omega)
  refine ⟨⟨e.1, e.2, e.3, e.4, e.5, e.6, e.7, e.8, e.9, e.10⟩, rfl, ?_, ?_⟩ <;> rcases h with rfl | rfl <;> decide +kernel

theorem test_hyp_RunningOperationIgnoresOperandRegisters : ∃ t, engineStep (building testConfig) = .next t := ⟨_, rfl⟩

/-- Also for the statement that the parameters never change. -/
theorem test_hyp_StepKeepsInvariant : ∃ t, Inv (building testConfig) ∧ step (building testConfig) = .next t :=
  ⟨_, building_inv _ (by decide), rfl⟩

theorem test_hyp_OnlyTheHostCanStopTheMachine :
    let s := { built { testConfig with addrW := 4 } with host := [.store 16 1] }
    Inv s ∧ ∀ t, step s ≠ .next t :=
  ⟨⟨by decide, memory_wf_nil, nofun, by decide, by decide, fun _ => rfl, nofun, nofun, nofun, nofun⟩, fun _ h => by
    have e : step { built { testConfig with addrW := 4 } with host := [.store 16 1] } = .fault (.storeOutsideMem 16) := rfl
    rw [e] at h
    cases h⟩

/-- BUILD_DONE after reset, where TABLE is zero. -/
theorem test_hyp_TableWrittenOnlyByBuildDone :
    ∃ t, step (building testConfig) = .next t ∧ t.table ≠ (building testConfig).table :=
  ⟨_, rfl, fun h => absurd (congrArg (fun t => lookup t 0 1) h) (by decide +kernel)⟩

/-- The three clauses: reset, BUILD_DONE, acceptance of BUILD. -/
theorem test_hyp_TvalidWriters :
    (∃ t, step { built testConfig with sched := [.reset] } = .next t ∧ t.tvalid ≠ true) ∧
    (∃ t, step (building testConfig) = .next t ∧ t.tvalid ≠ false) ∧
    ∃ t, step { built testConfig with host := [.write 0x00 64 0x1] } = .next t ∧ t.tvalid ≠ true :=
  ⟨⟨_, rfl, nofun⟩, ⟨_, rfl, nofun⟩, ⟨_, rfl, nofun⟩⟩

/-- Each register in turn, and STATUS.ERR by a rejection and by ABORT. -/
theorem test_hyp_RegisterWriters :
    (∃ t, step { State.reset with host := [.write 0x10 64 7] } = .next t ∧ t.crcIn ≠ 0) ∧
    (∃ t, step { State.reset with host := [.write 0x18 64 7] } = .next t ∧ t.addr ≠ 0) ∧
    (∃ t, step { State.reset with host := [.write 0x20 64 7] } = .next t ∧ t.len ≠ 0) ∧
    (∃ t, step { State.reset with host := [.write 0x30 64 7] } = .next t ∧ t.tidx ≠ 0) ∧
    (∃ t, step (computing testConfig 5 0x1009 0) = .next t ∧ t.crcOut ≠ (computing testConfig 5 0x1009 0).crcOut) ∧
    (∃ t, step { built testConfig with tidx := 1, host := [.write 0x00 64 0x3] } = .next t ∧ t.tdata ≠ 0) ∧
    (∃ t, step { computing testConfig 0 0x3008 8 with busFaults := faultAt3008 } = .next t ∧ t.errAddr ≠ 0 ∧ t.err ≠ 0) ∧
    ∃ t, step { State.reset with host := [.write 0x00 64 0x4] } = .next t ∧ t.err ≠ 0 :=
  ⟨⟨_, rfl, by decide +kernel⟩, ⟨_, rfl, by decide +kernel⟩, ⟨_, rfl, by decide +kernel⟩, ⟨_, rfl, by decide +kernel⟩,
    ⟨_, rfl, by decide +kernel⟩, ⟨_, rfl, by decide +kernel⟩, ⟨_, rfl, by decide +kernel, by decide +kernel⟩,
    ⟨_, rfl, by decide +kernel⟩⟩

/-- The four clauses: reset, BUILD, COMPUTE, and an ending step. -/
theorem test_hyp_OperationStateTransitions :
    (∃ t, step { building testConfig with sched := [.reset] } = .next t ∧ t.op ≠ .building) ∧
    (∃ t, step { built testConfig with host := [.write 0x00 64 0x1] } = .next t ∧ t.op ≠ .idle) ∧
    (∃ t, step { built testConfig with host := [.write 0x00 64 0x2] } = .next t ∧ t.op ≠ .idle) ∧
    ∃ t, step (building testConfig) = .next t ∧ t.op ≠ .building :=
  ⟨⟨_, rfl, nofun⟩, ⟨_, rfl, nofun⟩, ⟨_, rfl, nofun⟩, ⟨_, rfl, nofun⟩⟩

/-- A step that is not a host store, and a host store at the last address of MEM while IDLE, BUILDING and COMPUTING. -/
theorem test_hyp_OnlyHostStoresChangeMem :
    (Inv (building testConfig) ∧ (∃ t, step (building testConfig) = .next t) ∧
      ¬ ∃ a b rest, turnOf (building testConfig) = .host ∧ (building testConfig).host = .store a b :: rest) ∧
    ∀ s ∈ [built testConfig, building testConfig, computing testConfig 0 0x1000 9],
      let s' := { s with sched := [.host], host := [.store 0xffffffffffffffff 7] }
      Inv s' ∧ turnOf s' = .host ∧ ∃ t, step s' = .next t := by
  refine ⟨⟨building_inv _ (by decide), ⟨_, rfl⟩, ?_⟩, ?_⟩
  · rintro ⟨a, b, rest, h, -⟩
    cases h
  · intro s hs
    have h : s = built testConfig ∨ s = building testConfig ∨ s = computing testConfig 0 0x1000 9 := by simpa using hs
    have e : Inv s := by
      rcases h with rfl | rfl | rfl
      · exact built_inv _ (by decide)
      · exact building_inv _ (by decide)
      · exact computing_inv _ _ _ _ rfl (.inr (by decide)) (by decide)
    refine ⟨⟨e.1, e.2, e.3, e.4, e.5, e.6, e.7, e.8, e.9, e.10⟩, rfl, ?_⟩
    rcases h with rfl | rfl | rfl <;> exact ⟨_, rfl⟩

/-- A store while COMPUTING, IDLE and BUILDING, at the last address of MEM. -/
theorem test_hyp_RacedByteReadsOldOrWritten :
    (let s := computing testConfig 0 0x1000 9
     Inv s ∧ s.op = .computing ∧ 0xffffffffffffffff < memSize s) ∧
    (Inv (built testConfig) ∧ (built testConfig).op ≠ .computing ∧ 0xffffffffffffffff < memSize (built testConfig)) ∧
    Inv (building testConfig) ∧ (building testConfig).op ≠ .computing ∧
      0xffffffffffffffff < memSize (building testConfig) :=
  ⟨⟨computing_inv _ _ _ _ rfl (.inr (by decide)) (by decide), rfl, by decide +kernel⟩,
    ⟨built_inv _ (by decide), nofun, by decide +kernel⟩, building_inv _ (by decide), nofun, by decide +kernel⟩

theorem test_hyp_WordAssembliesMirror : ([0x31, 0x32, 0x33, 0x34, 0x35, 0x36, 0x37, 0x38] : List Byte).length = 8 := rfl

/-! P_lin and P_ref hold of the test instance (rule R18) -/

theorem testCrcBit_xor (x y : Word) : testCrcBit (x ^^^ y) = testCrcBit x ^^^ testCrcBit y := by
  simp only [testCrcBit, BitVec.getLsbD_xor, BitVec.ushiftRight_xor_distrib]
  cases x.getLsbD 0 <;> cases y.getLsbD 0 <;> simp <;> first | ac_rfl | skip
  rw [show ∀ a b c : Word, a ^^^ c ^^^ (b ^^^ c) = a ^^^ b ^^^ (c ^^^ c) from fun a b c => by ac_rfl, BitVec.xor_self,
    BitVec.xor_zero]

theorem testCrcBit_repeat_xor (n : Nat) (x y : Word) :
    Nat.repeat testCrcBit n (x ^^^ y) = Nat.repeat testCrcBit n x ^^^ Nat.repeat testCrcBit n y := by
  induction n with
  | zero => rfl
  | succ n ih => simp only [Nat.repeat, ih, testCrcBit_xor]

theorem testCrcByte_zero (b : Byte) : testCrcByte 0 b = Nat.repeat testCrcBit 8 (zext64 b) := by
  rw [testCrcByte, show (0 : Word) ^^^ b.setWidth 64 = zext64 b from BitVec.zero_xor]

/-- For the statements on rows. -/
theorem test_hyp_PLin : PLin testConfig := by
  intro a b
  simp only [testConfig, logicalRow0_configOf, testCrcFn, List.foldl_cons, List.foldl_nil, testCrcByte_zero]
  rw [← testCrcBit_repeat_xor, show zext64 (a ^^^ b) = zext64 a ^^^ zext64 b from BitVec.setWidth_xor]

/-- Shifting out a zero bit. -/
theorem testCrcBit_even (x : Word) (h : x.getLsbD 63 = false) : testCrcBit (x <<< 1) = x := by
  rw [testCrcBit, if_neg (by simp)]
  apply BitVec.eq_of_getLsbD_eq
  intro i hi
  by_cases h63 : i = 63
  · subst h63
    rw [h]
    simp
  · simp [show 1 + i < 64 by omega, BitVec.getLsbD_eq_getElem hi]

theorem testCrcBit_shift (n : Nat) : ∀ x : Word, (∀ i, 64 - n ≤ i → x.getLsbD i = false) →
    Nat.repeat testCrcBit n (x <<< n) = x := by
  induction n with
  | zero => intro x _; simp [Nat.repeat]
  | succ n ih =>
    intro x h
    have e : x <<< (n + 1) = (x <<< 1) <<< n := by rw [← BitVec.shiftLeft_add, Nat.add_comm]
    rw [e, Nat.repeat, ih]
    · exact testCrcBit_even x (h 63 (by omega))
    · intro i hi
      simp only [BitVec.getLsbD_shiftLeft]
      by_cases h0 : i = 0
      · simp [h0]
      · simp [h (i - 1) (by omega)]

/-- One byte of the test instance is the logical byte step its row 0 induces. -/
theorem testCrcByte_eq_step (w : Word) (b : Byte) : testCrcByte w b = logicalStep testConfig w b := by
  have hz : ∀ i, 8 ≤ i → (zext64 b).getLsbD i = false := by
    intro i hi
    simp only [zext64, BitVec.getLsbD_setWidth]
    simp [BitVec.getLsbD_of_ge b i hi]
  have hs : w ^^^ zext64 b = zext64 (maskFF (w ^^^ zext64 b)) ^^^ (w >>> 8) <<< 8 := by
    rw [maskFF_eq_byteOf]
    apply BitVec.eq_of_getLsbD_eq
    intro i hi
    by_cases h8 : i < 8
    · simp [zext64, byteOf, h8, hi]
    · have e1 : (zext64 (byteOf (w ^^^ zext64 b) 0)).getLsbD i = false := by
        rw [zext64, BitVec.getLsbD_setWidth, BitVec.getLsbD_of_ge _ i (by omega), Bool.and_false]
      rw [BitVec.getLsbD_xor, hz i (by omega), BitVec.getLsbD_xor, e1]
      simp [h8, hi, show 8 + (i - 8) = i by omega]
  simp only [logicalStep, testConfig, logicalRow0_configOf, testCrcFn, List.foldl_cons, List.foldl_nil, testCrcByte_zero]
  rw [testCrcByte, show b.setWidth 64 = zext64 b from rfl]
  conv => lhs; rw [hs]
  rw [testCrcBit_repeat_xor, testCrcBit_shift]
  intro i hi
  simp only [BitVec.getLsbD_ushiftRight]
  exact BitVec.getLsbD_of_ge w _ (by omega)

theorem test_hyp_PRef : PRef testConfig testCrcFn := by
  intro w bs
  induction bs generalizing w with
  | nil => rfl
  | cons b bs ih =>
    rw [testCrcFn, List.foldl_cons, testCrcByte_eq_step]
    exact ih _

theorem test_hyp_Represents : Represents testConfig testCrcFn := fun n => logicalRow0_configOf _ _ _ n

theorem test_hyp_WordStepIsEightByteSteps : PLin testConfig ∧ testConfig.endian = .le ∧ (List.replicate 8 (0 : Byte)).length = 8 :=
  ⟨test_hyp_PLin, rfl, rfl⟩

/-! Whole operations -/

/-- With no region all of MEM answers with data. -/
theorem test_hyp_ComputeTakesItsPhases :
    let s := computing testConfig 0 0x1000 9
    Inv s ∧ s.op = .computing ∧ BusQuiet s s.cur s.rem ∧ 2 < stepCount s.cur s.rem :=
  ⟨computing_inv _ _ _ _ rfl (.inr (by decide)) (by decide), rfl, fun _ _ _ _ => rfl, by decide +kernel⟩

/-- V-F3: the second read of the plan is the first that MEM answers with fault. -/
theorem test_hyp_FirstFaultEndsTheCompute :
    let s := { computing testConfig 0 0x3000 16 with busFaults := faultAt3008 }
    Inv s ∧ s.op = .computing ∧ (readPlan s.cur s.rem)[1]? = some ⟨0x3008, .word⟩ ∧
      (∀ i q, i < 1 → (readPlan s.cur s.rem)[i]? = some q → busFaulted s.busFaults q.addr q.size = false) ∧
      busFaulted s.busFaults 0x3008 .word = true := by
  have e := computing_inv testConfig 0 0x3000 16 rfl (.inr (by decide)) (by decide)
  refine ⟨⟨e.1, e.2, e.3, e.4, e.5, e.6, e.7, e.8, e.9, e.10⟩, rfl, by decide +kernel, ?_, by decide +kernel⟩
  intro i q hi hq
  have h0 : i = 0 := by omega
  subst h0
  have e0 : (readPlan 0x3000 16)[0]? = some ⟨0x3000, .word⟩ := by decide +kernel
  have hq : (readPlan 0x3000 16)[0]? = some q := hq
  rw [e0] at hq
  cases hq
  decide +kernel

theorem test_hyp_EveryOperationCompletes : (Inv (building testConfig) ∧ (building testConfig).op = .building) ∧
    Inv (computing testConfig 0 0x1000 9) ∧ (computing testConfig 0 0x1000 9).op = .computing :=
  ⟨⟨building_inv _ (by decide), rfl⟩, computing_inv _ _ _ _ rfl (.inr (by decide)) (by decide), rfl⟩

theorem logical_be (k : Nat) (n : Byte) : logical beConfig k n = logical testConfig k n := by
  induction k generalizing n with
  | zero => rfl
  | succ k ih => rw [logical, logical, ih]; rfl

/-- Two instances with a built table and a waiting COMPUTE that differ only in ENDIAN. -/
theorem ready_twins :
    Twin { built testConfig with host := [.write 0x00 64 0x2] } { built beConfig with host := [.write 0x00 64 0x2] } where
  isLe := rfl
  cfg := rfl
  op := rfl
  tvalid := rfl
  err := rfl
  crcIn := rfl
  addr := rfl
  len := rfl
  crcOut := rfl
  tidx := rfl
  tdata := by show (0 : Word) = rev8 0; decide
  errAddr := rfl
  table := fun _ k n => by
    show lookup (storedTable beConfig) k n = rev8 (lookup (storedTable testConfig) k n)
    rw [lookup_storedTable, lookup_storedTable, logical_be]
    rfl
  acc := nofun
  cur := rfl
  rem := rfl
  mem := rfl
  busFaults := rfl
  raced := rfl
  draws := rfl
  reads := rfl
  host := rfl
  sched := rfl
  trace := rfl

/-- Also for the statement on whole runs: the COMPUTE of length 0 is accepted and finishes. -/
theorem test_hyp_EndianTwinsStayTogether : ∃ s t u : State, Inv s ∧ Twin s t ∧ run 2 s = .next u := by
  have e := built_inv testConfig (by decide)
  exact ⟨{ built testConfig with host := [.write 0x00 64 0x2] }, { built beConfig with host := [.write 0x00 64 0x2] }, _,
    ⟨e.1, e.2, e.3, e.4, e.5, e.6, e.7, e.8, e.9, e.10⟩, ready_twins, rfl⟩

/-- Idle with a built table and a COMPUTE of `n` of the digits at `a` to come. -/
def ready (crcIn a n : Word) : State := { built testConfig with crcIn := crcIn, addr := a, len := n, mem := digits }

theorem ready_inv (crcIn a n : Word) : Inv (ready crcIn a n) := by
  have e := built_inv testConfig (by decide)
  exact ⟨e.1, digits_canonical, digits_inside _ rfl, e.4, e.5, e.6, e.7, nofun, nofun, nofun⟩

theorem test_hyp_ComputeFinishesOnAQuietBus :
    let s := ready 0 0x1000 9
    s.op = .idle ∧ s.tvalid = true ∧ rangeOk s ∧ BusQuiet s s.addr.toNat s.len.toNat :=
  ⟨rfl, rfl, by decide +kernel, fun _ _ _ _ => rfl⟩

/-- A run can be the FINISH alone. -/
theorem last_step {lo hi : Nat} {v : State} (ho : v.op = .computing) (ht : turnOf v = .engine)
    (he : enabledStep v = some .finish) : ∃ u, FinishingRun lo hi v u := by
  refine ⟨finish { v with sched := v.sched.tail }, .finish ho ht he ?_⟩
  have e : enabledStep { v with sched := v.sched.tail } = some .finish := he
  rw [step_eq, ht, runTurn_engine, engineStep, e]

/-- A run can begin with the read of one byte. -/
theorem byte_first {lo hi : Nat} {v : State} (ho : v.op = .computing) (ht : v.sched = []) (h0 : v.rem ≠ 0) (h8 : v.rem < 8)
    (hr : v.cur + 1 ≤ memSize v) (hf : v.busFaults = []) :
    ∃ w, w.op = .computing ∧ w.sched = [] ∧ w.busFaults = [] ∧ w.cfg = v.cfg ∧ w.cur = v.cur + 1 ∧ w.rem = v.rem - 1 ∧
      ∀ u, FinishingRun lo hi w u → FinishingRun lo hi v u := by
  have he : turnOf v = .engine := by simp [turnOf, ht, defaultTurn, ho]
  have hs : nextSize v = .byte := by simp [nextSize, h8]
  have hstep : step v = bufferStep .byte { v with sched := v.sched.tail } := by
    rw [step_eq, he, runTurn_engine, engineStep_reads (s := { v with sched := v.sched.tail }) ho h0]
    exact congrArg (fun z => bufferStep z _) hs
  have hb : busFaulted v.busFaults v.cur .byte = false := by rw [hf]; rfl
  rw [bufferStep_data (sz := .byte) (s := { v with sched := v.sched.tail }) hr hb] at hstep
  refine ⟨_, ?_, ?_, ?_, ?_, ?_, ?_, fun u h =>
    .more ho (by rw [he]; nofun) (fun _ _ _ x => by rw [he] at x; cases x) hstep h⟩
  · exact ho
  · show v.sched.tail = []
    rw [ht]
    rfl
  · exact hf
  · rfl
  · rfl
  · rfl

/-- One byte at 0x1000 or 0x1001, or both, from any CRC_IN. -/
theorem ready_computes (c a n : Word) (hn : n = 1 ∨ n = 2) (ha : a.toNat < 0x2000) : ∃ u, ComputesTo (ready c a n) u := by
  have hm : memSize (ready c a n) = 2 ^ 64 := rfl
  have hr : rangeOk (ready c a n) := by
    rw [rangeOk, hm]
    show n.toNat = 0 ∨ a.toNat + n.toNat ≤ 2 ^ 64
    rcases hn with rfl | rfl <;> right <;> show a.toNat + _ ≤ _ <;> simp <;> omega
  have he : exec .compute (ready c a n) = .next (acceptCompute (ready c a n)) := by
    show (if rangeOk (ready c a n) then _ else _) = _
    rw [if_pos hr]
  obtain ⟨w, w1, w2, w3, w4, w5, w6, hw⟩ := byte_first (lo := a.toNat) (hi := a.toNat + n.toNat)
    (v := acceptCompute (ready c a n)) rfl rfl
    (by show n.toNat ≠ 0; rcases hn with rfl | rfl <;> decide) (by show n.toNat < 8; rcases hn with rfl | rfl <;> decide)
    (by show a.toNat + 1 ≤ 2 ^ 64; omega) rfl
  have w6 : w.rem = n.toNat - 1 := w6
  rcases hn with rfl | rfl
  · obtain ⟨u, hu⟩ := last_step (lo := a.toNat) (hi := a.toNat + (1 : Word).toNat) w1 (by simp [turnOf, w2, defaultTurn, w1])
      (by simp [enabledStep, w1, w6])
    exact ⟨u, rfl, _, he, rfl, hw u hu⟩
  · have w5 : w.cur = a.toNat + 1 := w5
    have w6 : w.rem = 1 := w6
    obtain ⟨x, x1, x2, x3, x4, x5, x6, hx⟩ := byte_first (lo := a.toNat) (hi := a.toNat + (2 : Word).toNat) w1 w2
      (by rw [w6]; decide) (by rw [w6]; decide)
      (by rw [memSize, w4, w5]; show a.toNat + 1 + 1 ≤ 2 ^ 64; omega) w3
    obtain ⟨u, hu⟩ := last_step (lo := a.toNat) (hi := a.toNat + (2 : Word).toNat) x1 (by simp [turnOf, x2, defaultTurn, x1])
      (by simp [enabledStep, x1, x6, w6])
    exact ⟨u, rfl, _, he, rfl, hw u (hx u hu)⟩

/-- Also for the statement on the byte fold. -/
theorem test_hyp_ComputeEqualsTheReference : ∃ s u : State, Inv s ∧ Represents s.cfg testCrcFn ∧ PLin s.cfg ∧
    PRef s.cfg testCrcFn ∧ ComputesTo s u := by
  obtain ⟨u, h⟩ := ready_computes 0 0x1000 1 (.inl rfl) (by decide)
  exact ⟨_, u, ready_inv _ _ _, test_hyp_Represents, test_hyp_PLin, test_hyp_PRef, h⟩

theorem test_hyp_ChainedComputesAgree : ∃ s1 u1 s2 u2 s3 u3 : State, Inv s1 ∧ Inv s2 ∧ Inv s3 ∧ PLin s1.cfg ∧
    s2.cfg = s1.cfg ∧ s3.cfg = s1.cfg ∧ ComputesTo s1 u1 ∧ ComputesTo s2 u2 ∧ ComputesTo s3 u3 ∧
    s2.crcIn = u1.crcOut ∧ s3.crcIn = s1.crcIn ∧
    bytesAt s3.mem s3.addr.toNat s3.len.toNat =
      bytesAt s1.mem s1.addr.toNat s1.len.toNat ++ bytesAt s2.mem s2.addr.toNat s2.len.toNat := by
  obtain ⟨u1, h1⟩ := ready_computes 5 0x1000 1 (.inl rfl) (by decide)
  obtain ⟨u2, h2⟩ := ready_computes u1.crcOut 0x1001 1 (.inl rfl) (by decide)
  obtain ⟨u3, h3⟩ := ready_computes 5 0x1000 2 (.inr rfl) (by decide)
  exact ⟨ready 5 0x1000 1, u1, ready u1.crcOut 0x1001 1, u2, ready 5 0x1000 2, u3, ready_inv _ _ _, ready_inv _ _ _,
    ready_inv _ _ _, test_hyp_PLin, rfl, rfl, h1, h2, h3, rfl, rfl,
    (by decide +kernel : bytesAt digits 0x1000 2 = bytesAt digits 0x1000 1 ++ bytesAt digits 0x1001 1)⟩

end Sys2Proof.Tests
end

/-! The scope rules: the parameters of an instance stay as they are (rules R6 to R8), byte reversal (rule R12) and the
two word assemblies (rule R13). -/

namespace Sys2Proof.Machine

/-- Rules R6 to R8, over the list of everything a step can do: no case writes the parameters. -/
theorem Happens.cfg_eq {s t : State} (h : Happens s t) : t.cfg = s.cfg := by
  cases h with
  | finish => rw [finish_cfg, popTurn_cfg]
  | abort => rw [abort_cfg, noteRead_cfg, popTurn_cfg]
  | reset => rw [resetEvent_cfg, popTurn_cfg]
  | _ => rfl

/-- The mirrored lane in the index form of rules R12 and R13. -/
theorem rev_lane_val {i : Nat} (h : i < 8) : (Fin.rev ⟨i, h⟩ : Fin 8).val = 7 - i :=
  (Fin.val_rev _).trans (Nat.succ_sub_succ 7 i)

theorem byteOf_rev8 (x : Word) {i : Nat} (h : i < 8) : byteOf (rev8 x) i = byteOf x (7 - i) := by
  rw [← rev_lane_val h]
  exact byteOf_rev8_fin x ⟨i, h⟩

@[simp] theorem rev8_rev8 (x : Word) : rev8 (rev8 x) = x := by
  refine word_ext fun i h => ?_
  have twice : 7 - (7 - i) = i := by omega
  rw [byteOf_rev8 _ h, byteOf_rev8 x (by omega), twice]

theorem rev8_xor (x y : Word) : rev8 (x ^^^ y) = rev8 x ^^^ rev8 y := by
  refine word_ext fun i h => ?_
  rw [byteOf_xor, byteOf_rev8 _ h, byteOf_rev8 x h, byteOf_rev8 y h, byteOf_xor]

theorem byteOf_be64_mirror (bs : List Byte) {i : Nat} (h : i < 8) : byteOf (be64 bs) (7 - i) = bs.getD i 0 := by
  rw [← rev_lane_val h, byteOf_be64, Fin.rev_rev]

/-- Rule R13: the big-endian word is the little-endian one reversed. -/
theorem be64_eq_rev8_le64 (bs : List Byte) : be64 bs = rev8 (le64 bs) := by
  refine word_ext fun i h => ?_
  calc byteOf (be64 bs) i
    _ = bs.getD (Fin.rev ⟨i, h⟩ : Fin 8) 0 := byteOf_be64 bs ⟨i, h⟩
    _ = byteOf (le64 bs) (Fin.rev ⟨i, h⟩ : Fin 8) := (byteOf_le64 bs _).symm
    _ = byteOf (rev8 (le64 bs)) i := (byteOf_rev8_fin (le64 bs) ⟨i, h⟩).symm

/-- Settles O38: the inversion lemma of `step` lists its outcomes, and none writes the parameters. -/
theorem parametersNeverChange : Obligations.ParametersNeverChange := by
  unfold Obligations.ParametersNeverChange
  intro s t h
  exact (step_happens h).cfg_eq

/-- Settles O45: two words are equal when their bytes are, and `rev8` is read byte by byte. -/
theorem rev8ReversesBytes : Obligations.Rev8ReversesBytes := by
  unfold Obligations.Rev8ReversesBytes
  exact ⟨fun x _ => byteOf_rev8 x, rev8_rev8, rev8_xor, by decide⟩

/-- Settles O46, byte by byte: each lane of an assembly holds one byte of the buffer. -/
theorem wordAssembliesMirror : Obligations.WordAssembliesMirror := by
  unfold Obligations.WordAssembliesMirror
  intro bs _
  exact ⟨fun i h => byteOf_le64 bs ⟨i, h⟩, fun _ => byteOf_be64_mirror bs, be64_eq_rev8_le64 bs⟩

end Sys2Proof.Machine

/-! The state: the invariant of a good state and who writes what (10_state.md), the reset state (rule R44), the fields
of STATUS (rule R22) and TIDX (rule R32), and the accesses of the register window (rule R35). -/

namespace Sys2Proof.Machine

/-! The invariant of a good state -/

theorem ErrCode.code_le_five (c : ErrCode) : c.code.toNat ≤ 5 := by
  cases c <;> decide

/-- Rule R128: in a good state the next read lies inside MEM. -/
theorem Inv.read_inside {s : State} (hs : Inv s) (ho : s.op = .computing) (h0 : s.rem ≠ 0) :
    s.cur + (nextSize s).bytes ≤ memSize s := by
  have hin := (hs.cursorInside ho).resolve_left h0
  have hle := nextSize_le h0
  omega

/-- An event that ends in IDLE keeps the invariant whatever acc, cur and rem become: they are unspecified there (rules
R39 to R41). -/
theorem Inv.ended {s t : State} (hs : Inv s) (hcfg : t.cfg = s.cfg := by simp) (hmem : t.mem = s.mem := by simp)
    (hop : t.op = .idle := by simp) (herr : t.err.toNat ≤ 5 := by simp) (htidx : t.tidx.toNat < 2 ^ 11 := by simp)
    (htable : t.tvalid = true → t.table = storedTable t.cfg := by simp) : Inv t where
  cfgLegal := hcfg ▸ hs.cfgLegal
  memCanonical := hmem ▸ hs.memCanonical
  memInside := by
    rw [memSize, hcfg, hmem]
    exact hs.memInside
  errDefined := herr
  tidxLegal := htidx
  tableBuilt := htable
  buildingInvalid h := by rw [hop] at h; cases h
  computingValid h := by rw [hop] at h; cases h
  cursorInside h := by rw [hop] at h; cases h
  remBounded h := by rw [hop] at h; cases h

/-- A good state stays good over each thing a step can do; `hs` serves every clause whose fields the event leaves. -/
theorem Happens.keeps_inv {s t : State} (h : Happens s t) (hs : Inv s) : Inv t := by
  cases h with
  | busy => exact { hs with errDefined := ErrCode.code_le_five .busy }
  | illegal => exact { hs with errDefined := ErrCode.code_le_five .illegal }
  | range => exact { hs with errDefined := ErrCode.code_le_five .range }
  | noTable => exact { hs with errDefined := ErrCode.code_le_five .noTable }
  | nop | rdtab => exact { hs with errDefined := ErrCode.code_le_five .none }
  | build =>
    exact { hs with
      errDefined := ErrCode.code_le_five .none
      tableBuilt := nofun
      buildingInvalid := fun _ => rfl
      computingValid := nofun
      cursorInside := nofun
      remBounded := nofun }
  | compute _ _ _ _ _ _ hv hr =>
    exact { hs with
      errDefined := ErrCode.code_le_five .none
      buildingInvalid := nofun
      computingValid := fun _ => hv
      cursorInside := fun _ => hr
      remBounded := fun _ => s.len.isLt }
  | setTidx v => exact { hs with tidxLegal := warlTidx_lt v }
  | store a b _ _ _ ha =>
    exact { hs with
      memCanonical := memory_wf_write s.mem a b hs.memCanonical
      memInside := memory_inside_write s.mem a (memSize s) b hs.memInside ha }
  | buildDone => exact hs.ended (herr := hs.errDefined) (htidx := hs.tidxLegal)
  | finish =>
    exact hs.ended (herr := by simpa using hs.errDefined) (htidx := by simpa using hs.tidxLegal)
      (htable := by simpa using hs.tableBuilt)
  | abort => exact hs.ended (htidx := by simpa using hs.tidxLegal) (htable := by simpa using hs.tableBuilt)
  | data _ ho h0 =>
    have hsum : s.cur + (nextSize s).bytes + (s.rem - (nextSize s).bytes) = s.cur + s.rem := by
      have hle := nextSize_le h0
      omega
    exact { hs with
      cursorInside := fun _ => .inr (hsum.trans_le ((hs.cursorInside ho).resolve_left h0))
      remBounded := fun _ => Nat.lt_of_le_of_lt (Nat.sub_le _ _) (hs.remBounded ho) }
  | reset => exact hs.ended
  | _ => exact { hs with }

/-- Settles O36: the inversion lemma of `step` lists what a step can do, and each keeps the invariant. -/
theorem stepKeepsInvariant : Obligations.StepKeepsInvariant := by
  unfold Obligations.StepKeepsInvariant
  intro s t hs h
  exact (step_happens h).keeps_inv hs

theorem inv_resetOf {c : Config} (h : c.wf) : Inv (State.resetOf c) where
  cfgLegal := h
  memCanonical := memory_wf_nil
  memInside := nofun
  errDefined := Nat.zero_le 5
  tidxLegal := Nat.two_pow_pos 11
  tableBuilt := nofun
  buildingInvalid := nofun
  computingValid := nofun
  cursorInside := nofun
  remBounded := nofun

/-- Settles O3: after reset nothing is valid, nothing runs and MEM lists nothing. -/
theorem resetMeetsInvariant : Obligations.ResetMeetsInvariant := by
  unfold Obligations.ResetMeetsInvariant
  exact ⟨inv_resetOf (by decide), fun _ => inv_resetOf⟩

/-! What answers a next state: every command and register write always, the engine in a good state -/

theorem exec_answers (i : Instr) (s : State) : ∃ t, exec i s = .next t := by
  rcases exec_cases i s with ⟨-, e⟩ | ⟨-, -, e⟩ | ⟨-, -, e⟩ | ⟨-, -, -, -, e⟩ | ⟨-, -, -, -, e⟩ | ⟨-, -, -, e⟩ |
    ⟨-, -, -, e⟩
  all_goals exact ⟨_, e⟩

theorem issueIllegal_answers (s : State) : ∃ t, issueIllegal s = .next t := by
  rcases issueIllegal_cases s with ⟨-, e⟩ | ⟨-, e⟩
  all_goals exact ⟨_, e⟩

theorem regWrite_answers (off : Nat) (v : Word) (s : State) : ∃ t, regWrite off v s = .next t := by
  rcases regWrite_cases off v s with ⟨-, i, -, e⟩ | ⟨-, -, e⟩ | ⟨-, e⟩ | ⟨-, e⟩ | ⟨-, e⟩ | ⟨-, e⟩ | e
  · exact e ▸ exec_answers i s
  · exact e ▸ issueIllegal_answers s
  all_goals exact ⟨_, e⟩

theorem bufferStep_answers {sz : ReadSize} {s : State} (h : s.cur + sz.bytes ≤ memSize s) :
    ∃ t, bufferStep sz s = .next t := by
  rcases bufferStep_cases sz s with ⟨hout, -⟩ | ⟨-, -, e⟩ | ⟨-, -, e⟩
  · exact absurd h hout
  all_goals exact ⟨_, e⟩

theorem engineStep_answers {s : State} (hs : Inv s) : ∃ t, engineStep s = .next t := by
  cases ho : s.op with
  | idle => exact ⟨s, by simp [engineStep, enabledStep, ho]⟩
  | building => exact ⟨buildDone s, by simp [engineStep, enabledStep, ho]⟩
  | computing =>
    by_cases h0 : s.rem = 0
    · exact ⟨finish s, by simp [engineStep, enabledStep, ho, h0]⟩
    · rw [engineStep_reads ho h0]
      exact bufferStep_answers (hs.read_inside ho h0)

/-- A host transaction that is no part of the interface is the only one that stops the machine. -/
theorem hostStep_answers {s : State} (h : ∀ op rest, s.host = op :: rest → op.wf (memSize s) = true) :
    ∃ t, hostStep s = .next t := by
  rcases hostStep_cases s with ⟨-, e⟩ | ⟨op, rest, r, hh, hw, -⟩ | ⟨off, v, rest, -, e⟩ | ⟨_, _, -, e⟩ | ⟨_, -, -, e⟩ |
    ⟨_, -, -, e⟩ | ⟨a, b, rest, hh, e⟩
  · exact ⟨_, e⟩
  · exact absurd (h op rest hh) (by simp [hw])
  · exact e ▸ regWrite_answers off v _
  · exact ⟨_, e⟩
  · exact ⟨_, e⟩
  · exact ⟨_, e⟩
  · have ha : a < memSize s := by simpa [HostOp.wf] using h _ _ hh
    exact ⟨_, e.trans (hostStore_inside ha)⟩

theorem step_answers {s : State} (hs : Inv s)
    (h : turnOf s = .host → ∀ op rest, s.host = op :: rest → op.wf (memSize s) = true) : ∃ t, step s = .next t := by
  rw [step_eq]
  cases hturn : turnOf s with
  | host => exact hostStep_answers (s := popTurn s) (h hturn)
  | engine => exact engineStep_answers (s := popTurn s) { hs with }
  | reset => exact ⟨_, rfl⟩
  | bus => exact ⟨_, rfl⟩

/-- Settles O37: in a good state only an ill-formed transaction of the host can keep a step from answering. -/
theorem onlyTheHostCanStopTheMachine : Obligations.OnlyTheHostCanStopTheMachine := by
  unfold Obligations.OnlyTheHostCanStopTheMachine
  intro s hs hstop
  by_contra hno
  obtain ⟨t, ht⟩ := step_answers hs fun hturn op rest hh =>
    Bool.of_not_eq_false fun hw => hno ⟨hturn, op, rest, hh, hw⟩
  exact hstop t ht

/-! Who writes what, over the list of everything a step can do. The events that write the field are named; every other
leaves it, so that it did not change. -/

/-- A word that decodes to a command is the command's word (rules R71 to R73). -/
theorem eq_encode_of_decode {v : Word} {i : Instr} (h : decode v = .cmd i) : v = encode i := by
  simp only [decode] at h
  repeat' split at h
  all_goals cases h
  all_goals assumption

theorem writesCommand_of_decode {s : State} {v : Word} {i : Instr} {rest : List HostOp} (hd : decode v = .cmd i)
    (h : s.host = .write 0x00 64 v :: rest) : s.host = .write 0x00 64 (encode i) :: rest :=
  eq_encode_of_decode hd ▸ h

/-- Settles O39: only reset and BUILD_DONE write TABLE. -/
theorem tableWrittenOnlyByBuildDone : Obligations.TableWrittenOnlyByBuildDone := by
  unfold Obligations.TableWrittenOnlyByBuildDone
  intro s t h hne
  cases step_happens h with
  | reset hturn => exact .inl hturn
  | buildDone hturn hop => exact .inr ⟨hturn, hop, rfl⟩
  | _ => exact (hne (by simp)).elim

/-- Settles O40: only reset, BUILD_DONE and the acceptance of BUILD write TVALID. -/
theorem tvalidWriters : Obligations.TvalidWriters := by
  unfold Obligations.TvalidWriters
  intro s t h hne
  cases step_happens h with
  | reset hturn => exact .inl ⟨hturn, rfl⟩
  | buildDone hturn hop => exact .inr (.inl ⟨hturn, hop, rfl⟩)
  | build v rest hturn hhost hop hd =>
    exact .inr (.inr ⟨hturn, hop, ⟨rest, writesCommand_of_decode hd hhost⟩, rfl⟩)
  | _ => exact (hne (by simp)).elim

/-- Settles O42: only reset, the acceptance of BUILD or COMPUTE and the ending engine steps write op. -/
theorem operationStateTransitions : Obligations.OperationStateTransitions := by
  unfold Obligations.OperationStateTransitions
  intro s t h hne
  cases step_happens h with
  | reset hturn => exact .inl ⟨hturn, rfl⟩
  | build v rest hturn hhost hop hd =>
    exact .inr (.inl ⟨hturn, hop, rfl, rest, writesCommand_of_decode hd hhost⟩)
  | compute v rest hturn hhost hop hd hvalid =>
    exact .inr (.inr (.inl ⟨hturn, hop, rfl, hvalid, rest, writesCommand_of_decode hd hhost⟩))
  | buildDone hturn hop => exact .inr (.inr (.inr ⟨hturn, by simp [hop], rfl⟩))
  | finish hturn hop => exact .inr (.inr (.inr ⟨hturn, by simp [hop], rfl⟩))
  | abort hturn hop => exact .inr (.inr (.inr ⟨hturn, by simp [hop], rfl⟩))
  | _ => exact (hne (by simp)).elim

theorem Happens.crcIn_writer {s t : State} (h : Happens s t) (hne : t.crcIn ≠ s.crcIn) :
    turnOf s = .reset ∨ turnOf s = .host ∧ ∃ rest, s.host = .write 0x10 64 t.crcIn :: rest := by
  cases h with
  | setCrcIn v rest hturn hhost => exact .inr ⟨hturn, rest, hhost⟩
  | reset hturn => exact .inl hturn
  | _ => exact (hne (by simp)).elim

theorem Happens.addr_writer {s t : State} (h : Happens s t) (hne : t.addr ≠ s.addr) :
    turnOf s = .reset ∨ turnOf s = .host ∧ ∃ rest, s.host = .write 0x18 64 t.addr :: rest := by
  cases h with
  | setAddr v rest hturn hhost => exact .inr ⟨hturn, rest, hhost⟩
  | reset hturn => exact .inl hturn
  | _ => exact (hne (by simp)).elim

theorem Happens.len_writer {s t : State} (h : Happens s t) (hne : t.len ≠ s.len) :
    turnOf s = .reset ∨ turnOf s = .host ∧ ∃ rest, s.host = .write 0x20 64 t.len :: rest := by
  cases h with
  | setLen v rest hturn hhost => exact .inr ⟨hturn, rest, hhost⟩
  | reset hturn => exact .inl hturn
  | _ => exact (hne (by simp)).elim

theorem Happens.tidx_writer {s t : State} (h : Happens s t) (hne : t.tidx ≠ s.tidx) :
    turnOf s = .reset ∨ turnOf s = .host ∧ ∃ v rest, s.host = .write 0x30 64 v :: rest := by
  cases h with
  | setTidx v rest hturn hhost => exact .inr ⟨hturn, v, rest, hhost⟩
  | reset hturn => exact .inl hturn
  | _ => exact (hne (by simp)).elim

theorem Happens.crcOut_writer {s t : State} (h : Happens s t) (hne : t.crcOut ≠ s.crcOut) :
    turnOf s = .reset ∨ turnOf s = .engine ∧ enabledStep s = some .finish := by
  cases h with
  | finish hturn hop h0 => exact .inr ⟨hturn, by simp [enabledStep, hop, h0]⟩
  | reset hturn => exact .inl hturn
  | _ => exact (hne (by simp)).elim

theorem Happens.tdata_writer {s t : State} (h : Happens s t) (hne : t.tdata ≠ s.tdata) :
    turnOf s = .reset ∨
      turnOf s = .host ∧ s.op = .idle ∧ s.tvalid = true ∧ ∃ rest, s.host = .write 0x00 64 0x3#64 :: rest := by
  cases h with
  | rdtab v rest hturn hhost hop hd hvalid =>
    exact .inr ⟨hturn, hop, hvalid, rest, writesCommand_of_decode hd hhost⟩
  | reset hturn => exact .inl hturn
  | _ => exact (hne (by simp)).elim

theorem Happens.errAddr_writer {s t : State} (h : Happens s t) (hne : t.errAddr ≠ s.errAddr) :
    turnOf s = .reset ∨ turnOf s = .engine ∧ s.op = .computing ∧ t.op = .idle ∧ t.err = 5 := by
  cases h with
  | abort hturn hop => exact .inr ⟨hturn, hop, by simp, by simp⟩
  | reset hturn => exact .inl hturn
  | _ => exact (hne (by simp)).elim

theorem Happens.err_writer {s t : State} (h : Happens s t) (hne : t.err ≠ s.err) :
    turnOf s = .reset ∧ t.err = 0 ∨
      turnOf s = .host ∧ (∃ v rest, s.host = .write 0x00 64 v :: rest) ∧ t.err.toNat ≤ 4 ∨
      turnOf s = .engine ∧ s.op = .computing ∧ t.op = .idle ∧ t.err = 5 := by
  cases h with
  | busy v rest hturn hhost | illegal v rest _ hturn hhost | nop v rest hturn hhost | build v rest hturn hhost
  | compute v rest hturn hhost | range v rest hturn hhost | noTable v rest hturn hhost | rdtab v rest hturn hhost =>
    exact .inr (.inl ⟨hturn, ⟨v, rest, hhost⟩, by simp⟩)
  | abort hturn hop => exact .inr (.inr ⟨hturn, hop, by simp, by simp⟩)
  | reset hturn => exact .inl ⟨hturn, rfl⟩
  | _ => exact (hne (by simp)).elim

/-- Settles O41: one lemma per register, over the list of everything a step can do. -/
theorem registerWriters : Obligations.RegisterWriters := by
  unfold Obligations.RegisterWriters
  intro s t h
  have hap := step_happens h
  exact ⟨hap.crcIn_writer, hap.addr_writer, hap.len_writer, hap.tidx_writer, hap.crcOut_writer, hap.tdata_writer,
    hap.errAddr_writer, hap.err_writer⟩

/-! Register fields and accesses -/

theorem flagWord_getLsbD (b : Bool) (i : Nat) : (flagWord b).getLsbD i = (decide (i = 0) && b) := by
  cases i <;> simp [flagWord]

theorem statusWord_bit0 (s : State) : (statusWord s).getLsbD 0 = busyFlag s := by
  simp [statusWord, flagWord]

theorem statusWord_bit1 (s : State) : (statusWord s).getLsbD 1 = s.tvalid := by
  simp [statusWord, flagWord]

theorem statusWord_bit2 (s : State) : (statusWord s).getLsbD 2 = bigEndFlag s := by
  simp [statusWord, flagWord]

theorem statusWord_bit3 (s : State) : (statusWord s).getLsbD 3 = false := by
  simp [statusWord, flagWord]

/-- Above the three flags and the reserved bit 3 stands ERR alone. -/
theorem statusWord_bit_err (s : State) {j : Nat} (h : j < 60) : (statusWord s).getLsbD (4 + j) = s.err.getLsbD j := by
  have hBigEnd : 4 + j - 2 ≠ 0 := by omega
  have hTvalid : 4 + j - 1 ≠ 0 := by omega
  have hBusy : 4 + j ≠ 0 := by omega
  simp only [statusWord, BitVec.getLsbD_xor, BitVec.getLsbD_shiftLeft, BitVec.getLsbD_setWidth, flagWord_getLsbD,
    hBigEnd, hTvalid, hBusy]
  simp [show 4 + j < 64 by omega, show j < 64 by omega]

theorem statusWord_err (s : State) : (statusWord s).extractLsb' 4 4 = s.err := by
  apply BitVec.eq_of_getLsbD_eq
  intro i hi
  rw [BitVec.getLsbD_extractLsb', statusWord_bit_err s (by omega)]
  simp [hi]

theorem statusWord_high (s : State) : (statusWord s).extractLsb' 8 56 = 0 := by
  apply BitVec.eq_of_getLsbD_eq
  intro i hi
  have e : 8 + i = 4 + (4 + i) := by omega
  rw [BitVec.getLsbD_extractLsb', e, statusWord_bit_err s (by omega)]
  simp

theorem busyFlag_eq_true {s : State} : busyFlag s = true ↔ s.op ≠ .idle := decide_eq_true_iff

theorem bigEndFlag_eq_true {s : State} : bigEndFlag s = true ↔ s.cfg.endian = .be := decide_eq_true_iff

theorem statusWord_resetOf (c : Config) : statusWord (State.resetOf c) = if c.endian = .be then 0x4#64 else 0x0#64 := by
  by_cases h : c.endian = .be <;> simp [statusWord, State.resetOf, bigEndFlag, busyFlag, flagWord, h]

/-- Settles O1: STATUS is assembled from the fields, and every other register is a field of the state. -/
theorem resetGivesEachRegisterItsValue : Obligations.ResetGivesEachRegisterItsValue := by
  unfold Obligations.ResetGivesEachRegisterItsValue
  exact ⟨fun c => ⟨rfl, rfl, rfl, rfl, rfl, rfl, rfl, rfl, rfl, rfl, rfl, statusWord_resetOf c⟩, rfl⟩

/-- Settles O20, field by field: the shifts of rule R22 put the fields at places that do not overlap. -/
theorem statusFields : Obligations.StatusFields := by
  unfold Obligations.StatusFields
  intro s
  refine ⟨?_, statusWord_bit1 s, ?_, statusWord_bit3 s, statusWord_err s, statusWord_high s⟩
  · rw [statusWord_bit0, busyFlag_eq_true]
  · rw [statusWord_bit2, bigEndFlag_eq_true]

/-- TIDX agrees with what was written on every field inside its 11 bits. -/
theorem warlTidx_extract (v : Word) {lo n : Nat} (h : lo + n ≤ 11) :
    (warlTidx v).extractLsb' lo n = v.extractLsb' lo n := by
  apply BitVec.eq_of_getLsbD_eq
  intro i hi
  have h11 : lo + i < 11 := by omega
  have h64 : lo + i < 64 := by omega
  simp [warlTidx, hi, h11, h64]

theorem warlTidx_high (v : Word) : (warlTidx v).extractLsb' 11 53 = 0 := by
  apply BitVec.eq_of_getLsbD_eq
  intro i hi
  simp [warlTidx, hi]

/-- Settles O21: COL and ROW lie inside the eleven bits that are kept. -/
theorem tidxKeepsElevenBits : Obligations.TidxKeepsElevenBits := by
  unfold Obligations.TidxKeepsElevenBits
  intro s v
  exact ⟨s.setTidx (warlTidx v), rfl, warlTidx_extract v (by decide), warlTidx_high v, warlTidx_extract v (by decide),
    congrArg BitVec.toNat (warlTidx_extract v (by decide))⟩

theorem accessRefusal_none_iff {off width : Nat} :
    accessRefusal off width = none ↔ width = 64 ∧ off % 8 = 0 ∧ off < 0x80 := by
  rw [accessRefusal_none]
  simp [accessWf, and_assoc]

theorem step_host (s : State) (ts : List Turn) (p : List HostOp) :
    step { s with sched := .host :: ts, host := p } = hostStep { s with sched := ts, host := p } :=
  step_turn { s with host := p } .host ts

/-- Settles O22: whether an access is refused is decided by its offset and width alone, and no register write stops. -/
theorem accessesOutsideTheInterfaceAreRefused : Obligations.AccessesOutsideTheInterfaceAreRefused := by
  unfold Obligations.AccessesOutsideTheInterfaceAreRefused
  intro s ts rest off width v
  simp only [step_host]
  refine ⟨fun hout => ?_, fun hw h8 hwin => ?_⟩
  · have hne : accessRefusal off width ≠ none := by
      rw [Ne, accessRefusal_none_iff]
      omega
    obtain ⟨r, hr⟩ := Option.ne_none_iff_exists'.mp hne
    exact ⟨⟨r, by simp only [hostStep, hr]⟩, r, by simp only [hostStep, hr]⟩
  · have hr := accessRefusal_none_iff.mpr ⟨hw, h8, hwin⟩
    constructor
    · simp only [hostStep, hr]
      exact regWrite_answers _ _ _
    · simp only [hostStep, hr]
      exact ⟨_, rfl⟩

end Sys2Proof.Machine

/-! Buffer memory: who writes it and what a raced byte may read as (rules R52, R66, R213), the planned reads of a COMPUTE
(rules R62, R129), and register reads (rule R63). -/

namespace Sys2Proof.Machine

/-! Host stores -/

theorem step_store {s : State} {a : Nat} {b : Byte} {rest : List HostOp} (hturn : turnOf s = .host)
    (hhost : s.host = .store a b :: rest) : step s = hostStore a b (popOp s rest) := by
  rw [step_eq, hturn]
  show hostStep (popTurn s) = _
  have hpop : (popTurn s).host = .store a b :: rest := hhost
  simp only [hostStep, hpop]
  rfl

/-- A host store that answers a next state wrote its byte. -/
theorem mem_of_hostStore {s t : State} {a : Nat} {b : Byte} (h : hostStore a b s = .next t) :
    t.mem = s.mem.write a b := by
  by_cases ha : a < memSize s
  · rw [hostStore_inside ha] at h
    cases h
    rfl
  · rw [hostStore_outside ha] at h
    cases h

theorem memory_read_write_same {m : Memory} (h : Memory.wf m) (a : Nat) (b : Byte) : (m.write a b).read a = b := by
  rw [memory_read_write m a a b h, if_pos rfl]

theorem memory_read_write_ne {m : Memory} (h : Memory.wf m) {a x : Nat} (b : Byte) (hx : x ≠ a) :
    (m.write a b).read x = m.read x := by
  rw [memory_read_write m a x b h, if_neg hx]

/-- Rule R52, over the list of everything a step can do: the store alone writes MEM. -/
theorem Happens.mem_writer {s t : State} (h : Happens s t) (hne : t.mem ≠ s.mem) :
    turnOf s = .host ∧ ∃ a b rest, s.host = .store a b :: rest := by
  cases h with
  | store a b rest hturn hhost => exact ⟨hturn, a, b, rest, hhost⟩
  | _ => exact (hne (by simp)).elim

/-- Settles O43: no other event writes MEM, and a store that answers is a write of its byte. -/
theorem onlyHostStoresChangeMem : Obligations.OnlyHostStoresChangeMem := by
  unfold Obligations.OnlyHostStoresChangeMem
  intro s t hs h
  refine ⟨fun hno => ?_, fun a b rest hturn hhost => ?_⟩
  · by_contra hne
    obtain ⟨hturn, a, b, rest, hhost⟩ := (step_happens h).mem_writer hne
    exact hno ⟨a, b, rest, hturn, hhost⟩
  · rw [step_store hturn hhost] at h
    have hmem : t.mem = s.mem.write a b := mem_of_hostStore (s := popOp s rest) h
    rw [hmem]
    exact ⟨memory_read_write_same hs.memCanonical a b, fun _ => memory_read_write_ne hs.memCanonical b⟩

/-! Races -/

theorem racedValues_cons_same (a : Nat) (b : Byte) (cs : List Host.Cell) :
    racedValues ((a, b) :: cs) a = b :: racedValues cs a := by
  simp [racedValues]

/-- Rule R66: the byte read is one of its candidates. -/
theorem raceRead_mem (s : State) (a d : Nat) : raceRead s a d ∈ s.mem.read a :: racedValues s.raced a := by
  cases hold : racedValues s.raced a with
  | nil => simp [raceRead, hold]
  | cons v vs =>
    simp only [raceRead, hold]
    exact List.get_mem _ _

/-- Settles O44: the store writes its byte and records the value it replaces while COMPUTING. -/
theorem racedByteReadsOldOrWritten : Obligations.RacedByteReadsOldOrWritten := by
  unfold Obligations.RacedByteReadsOldOrWritten
  refine ⟨raceRead_mem, fun s a b ts rest hs ha => ?_⟩
  have hstore := (step_host s ts (.store a b :: rest)).trans
    (hostStore_inside (s := { s with sched := ts, host := rest }) (b := b) ha)
  refine ⟨_, hstore, rfl, memory_read_write_same hs.memCanonical a b,
    fun _ => memory_read_write_ne hs.memCanonical b, fun hop => ?_, fun hop => if_neg hop⟩
  simp only [if_pos hop]
  exact ⟨racedValues_cons_same a _ _, fun x hx => racedValues_cons_ne a _ _ x hx.symm⟩

/-! The planned reads -/

theorem sizeAt_le {n : Nat} (a : Nat) (h0 : n ≠ 0) : (sizeAt a n).bytes ≤ n := by
  simp only [sizeAt]
  split <;> simp only [ReadSize.bytes] <;> omega

theorem ReadSize.bytes_pos (sz : ReadSize) : 0 < sz.bytes := by
  cases sz <;> decide

theorem aligned_of_sizeAt_word {a n : Nat} (h : sizeAt a n = .word) : a % 8 = 0 := by
  by_contra hne
  simp [sizeAt, hne] at h

/-- The induction along a COMPUTE's reads: what holds of no bytes, and of a buffer when it holds of what its first read
leaves, holds of every buffer. -/
theorem reads_induction {P : Nat → Nat → Prop} (done : ∀ a, P a 0)
    (read : ∀ a n, n ≠ 0 → P (a + (sizeAt a n).bytes) (n - (sizeAt a n).bytes) → P a n) (a n : Nat) : P a n := by
  induction n using Nat.strong_induction_on generalizing a with
  | _ n ih =>
    by_cases h0 : n = 0
    · exact h0 ▸ done a
    · exact read a n h0 (ih _ (Nat.sub_lt (Nat.pos_of_ne_zero h0) (sizeAt a n).bytes_pos) _)

theorem readPlan_bytes (a n : Nat) :
    (readPlan a n).flatMap (fun r => List.range' r.addr r.size.bytes) = List.range' a n := by
  induction a, n using reads_induction with
  | done a => simp [readPlan_zero]
  | read a n h0 ih =>
    have hsum : (sizeAt a n).bytes + (n - (sizeAt a n).bytes) = n := Nat.add_sub_cancel' (sizeAt_le a h0)
    rw [readPlan_cons a n h0, List.flatMap_cons, ih, List.range'_append_1, hsum]

theorem readPlan_words_aligned (a n : Nat) : ∀ r ∈ readPlan a n, r.size = .word → r.addr % 8 = 0 := by
  induction a, n using reads_induction with
  | done a => simp [readPlan_zero]
  | read a n h0 ih =>
    rw [readPlan_cons a n h0, List.forall_mem_cons]
    exact ⟨aligned_of_sizeAt_word, ih⟩

/-- Settles O50, read by read: the first read takes the first bytes of the buffer, and the rest of the plan is the plan
of the bytes that are left. -/
theorem readPlanCoversTheBufferOnce : Obligations.ReadPlanCoversTheBufferOnce := by
  unfold Obligations.ReadPlanCoversTheBufferOnce
  exact fun a n => ⟨readPlan_bytes a n, readPlan_words_aligned a n⟩

/-! Register reads -/

/-- Settles O19: the access is part of the interface, and the event adds its value to the trace. -/
theorem registerReadHasNoSideEffect : Obligations.RegisterReadHasNoSideEffect := by
  unfold Obligations.RegisterReadHasNoSideEffect
  intro s ts rest off h8 hwin
  have hr := accessRefusal_none_iff.mpr ⟨rfl, h8, hwin⟩
  rw [step_host]
  simp only [hostStep, hr]
  rfl

end Sys2Proof.Machine

/-! The decoder and the encoder: each command's word, and the name under which every other word is rejected (rules R70
to R73). -/

namespace Sys2Proof.Machine

theorem encoding_lawful : ∀ i : Instr, Laws.Encoding.Statement i
  | .nop => Laws.Encoding.nop
  | .build => Laws.Encoding.build
  | .compute => Laws.Encoding.compute
  | .rdtab => Laws.Encoding.rdtab

@[simp] theorem fieldsOf_encode_wf (i : Instr) : (fieldsOf (encode i)).wf = true :=
  have ⟨_, hfields, _⟩ := encoding_lawful i
  hfields

@[simp] theorem decode_encode (i : Instr) : decode (encode i) = .cmd i :=
  have ⟨_, _, hdecode⟩ := encoding_lawful i
  hdecode

@[simp] theorem fieldsOf_wordOf (c : CmdWord) : fieldsOf (wordOf c) = c := by
  have hop : (wordOf c).extractLsb' 0 4 = c.op := BitVec.extractLsb'_append_eq_right
  have hrsvd : (wordOf c).extractLsb' 4 60 = c.rsvd := BitVec.extractLsb'_append_eq_left
  simp only [fieldsOf, hop, hrsvd]

/-! Words that are no command's -/

theorem decode_of_ne_encode {w : Word} (h : ∀ i, w ≠ encode i) : ∃ why, decode w = .illegal why := by
  cases hd : decode w with
  | cmd i => exact absurd (eq_encode_of_decode hd) (h i)
  | illegal why => exact ⟨why, rfl⟩

theorem wordOf_ne_encode {c : CmdWord} (h : c.wf = false) (i : Instr) : wordOf c ≠ encode i := by
  intro he
  have hlegal := fieldsOf_encode_wf i
  rw [← he, fieldsOf_wordOf, h] at hlegal
  cases hlegal

/-- Past the four legal words the decoder names the rejection by the reserved bits first (rules R72, R73). -/
theorem decode_wordOf_illegal {c : CmdWord} (h : c.wf = false) :
    decode (wordOf c) = .illegal (if c.rsvd ≠ 0 then .reservedBits else .reservedOp c.op) := by
  have hnop : wordOf c ≠ 0x0#64 := wordOf_ne_encode h .nop
  have hbuild : wordOf c ≠ 0x1#64 := wordOf_ne_encode h .build
  have hcompute : wordOf c ≠ 0x2#64 := wordOf_ne_encode h .compute
  have hrdtab : wordOf c ≠ 0x3#64 := wordOf_ne_encode h .rdtab
  simp only [decode, if_neg hnop, if_neg hbuild, if_neg hcompute, if_neg hrdtab, fieldsOf_wordOf]
  exact (apply_ite Decoded.illegal _ _ _).symm

theorem decode_reservedBits {c : CmdWord} (h : c.rsvd ≠ 0) : decode (wordOf c) = .illegal .reservedBits := by
  have hwf : c.wf = false := by simp only [CmdWord.wf, decide_eq_false h, Bool.and_false]
  rw [decode_wordOf_illegal hwf, if_pos h]

theorem decode_reservedOp {op : BitVec 4} (h : 3 < op.toNat) :
    decode (wordOf ⟨op, 0⟩) = .illegal (.reservedOp op) := by
  have hwf : CmdWord.wf ⟨op, 0⟩ = false := by simp only [CmdWord.wf, decide_eq_false h.not_ge, Bool.false_and]
  rw [decode_wordOf_illegal hwf, if_neg (not_not_intro rfl)]

theorem decodeTableWord_eq_some {nbits w : Nat} {i : Instr} (hlen : nbits ≤ 64)
    (hw : BitVec.ofNat 64 (w % 2 ^ nbits) = encode i) : decodeTableWord nbits w = some i := by
  simp only [decodeTableWord, if_pos hlen, hw, decode_encode]

/-- Settles O4: the four words are those of the commands, and a word of no command is rejected. -/
theorem legalWordsAreExactlyFour : Obligations.LegalWordsAreExactlyFour := by
  unfold Obligations.LegalWordsAreExactlyFour
  refine ⟨decode_encode .nop, decode_encode .build, decode_encode .compute, decode_encode .rdtab, ?_⟩
  intro w h0 h1 h2 h3
  refine decode_of_ne_encode fun i => ?_
  cases i with
  | nop => exact h0
  | build => exact h1
  | compute => exact h2
  | rdtab => exact h3

/-- Settles O5, from the law of each command and the inversion of the decoder. -/
theorem decodeAndEncodeAgree : Obligations.DecodeAndEncodeAgree := by
  unfold Obligations.DecodeAndEncodeAgree
  exact ⟨encoding_lawful, fun _ _ => eq_encode_of_decode⟩

/-- Settles O6: each word is a command's, or has a reserved OP or a reserved bit among its fields. -/
theorem wordsOfTheSpecDecode : Obligations.WordsOfTheSpecDecode := by
  unfold Obligations.WordsOfTheSpecDecode
  have hbit4 : (1 : BitVec 60) ≠ 0 := by decide
  have hbit63 : 0x800000000000000#60 ≠ 0 := by decide
  refine ⟨decode_encode .build, decode_encode .compute, decode_reservedOp (op := 4) (by decide),
    decode_reservedBits (c := ⟨0b0000, 1⟩) hbit4, decode_reservedBits (c := ⟨0b0010, 0x800000000000000⟩) hbit63, ?_, ?_⟩
  · exact decodeTableWord_eq_some (by decide) rfl
  · exact decodeTableWord_eq_some (by decide) rfl

end Sys2Proof.Machine

/-! The table builder: acceptance of BUILD and BUILD_DONE (rules R100, R104), and the rows of the logical table as byte
steps of rule R17, with their linearity under P_lin (rules R101, R102, R107, R108). -/

namespace Sys2Proof.Machine

/-! BUILD and BUILD_DONE -/

theorem exec_build_idle {s : State} (h : s.op = .idle) : exec .build s = .next (acceptBuild s) := by
  simp only [exec, execBuild, whenIdle_idle _ h]

theorem engineStep_building {s : State} (h : s.op = .building) : engineStep s = .next (buildDone s) := by
  simp only [engineStep, enabledStep, h]

/-- Settles O13: no check stands before acceptance but the busy check. -/
theorem buildStartsABuild : Obligations.BuildStartsABuild := by
  unfold Obligations.BuildStartsABuild
  intro s h
  rw [exec_build_idle h, acceptBuild_eq]

/-- Settles O27: BUILD_DONE stores the built table, and each entry of it is read through its orientation. -/
theorem buildDoneWritesTheTable : Obligations.BuildDoneWritesTheTable := by
  unfold Obligations.BuildDoneWritesTheTable
  intro s h
  exact ⟨buildDone s, engineStep_building h, buildDone_eq s, lookup_storedTable s.cfg⟩

/-! The logical byte step and its fold -/

theorem logicalFold_eq_foldl (c : Config) (w : Word) (bs : List Byte) :
    logicalFold c w bs = bs.foldl (logicalStep c) w := by
  induction bs generalizing w with
  | nil => rfl
  | cons b bs ih => exact ih _

/-- Taking in the zero byte. -/
theorem logicalStep_zeroByte (c : Config) (w : Word) :
    logicalStep c w 0 = logicalRow0 c (maskFF w) ^^^ (w >>> 8) := by
  have hzero : w ^^^ zext64 0 = w := BitVec.xor_zero
  rw [logicalStep, hzero]

/-- From the zero word one byte gives its entry of row 0. -/
theorem logicalStep_zeroWord (c : Config) (b : Byte) : logicalStep c 0 b = logicalRow0 c b := by
  simp [logicalStep]

theorem PLin.logicalStep_xor {c : Config} (hlin : PLin c) (x y : Word) (a b : Byte) :
    logicalStep c (x ^^^ y) (a ^^^ b) = logicalStep c x a ^^^ logicalStep c y b := by
  simp only [logicalStep, maskFF_xor, maskFF_zext64, hlin _ _, BitVec.ushiftRight_xor_distrib]
  ac_rfl

/-! The rows of the logical table -/

theorem logical_zero (c : Config) (n : Byte) : logical c 0 n = logicalRow0 c n := rfl

/-- Rule R102 as a byte step: each row takes one zero byte into the row before. -/
theorem logical_succ (c : Config) (k : Nat) (n : Byte) : logical c (k + 1) n = logicalStep c (logical c k n) 0 :=
  (logicalStep_zeroByte c _).symm

/-- Rule R107: row k takes k zero bytes into row 0. -/
theorem logical_eq_fold (c : Config) (k : Nat) (n : Byte) :
    logical c k n = logicalFold c (logical c 0 n) (List.replicate k 0) := by
  rw [logicalFold_eq_foldl]
  induction k with
  | zero => rfl
  | succ k ih => rw [logical_succ, ih, List.replicate_succ', List.foldl_concat]

/-- Rule R107 under P_ref: row k is the CRC of its byte followed by k zero bytes. -/
theorem PRef.logical_eq {c : Config} {crcFn : Word → List Byte → Word} (href : PRef c crcFn) (k : Nat) (n : Byte) :
    logical c k n = crcFn 0 (n :: List.replicate k 0) := by
  rw [href, logicalFold, logicalStep_zeroWord, ← logical_zero]
  exact logical_eq_fold c k n

/-- Rule R108: the byte step is linear, so a row that follows a linear one is linear. -/
theorem PLin.logical_xor {c : Config} (hlin : PLin c) (k : Nat) (a b : Byte) :
    logical c k (a ^^^ b) = logical c k a ^^^ logical c k b := by
  induction k with
  | zero => exact hlin a b
  | succ k ih =>
    rw [logical_succ, logical_succ, logical_succ, ih]
    exact hlin.logicalStep_xor _ _ 0 0

/-- A linear row's entry 0 is the XOR of itself with itself. -/
theorem PLin.logical_zeroByte {c : Config} (hlin : PLin c) (k : Nat) : logical c k 0 = 0 :=
  (hlin.logical_xor k 0 0).trans BitVec.xor_self

/-- Settles O26: the recursion of the logical table, with CRC_FN's own value wherever row 0 is read. -/
theorem logicalTableRows : Obligations.LogicalTableRows := by
  unfold Obligations.LogicalTableRows
  intro crcFn e w n
  refine ⟨logicalRow0_configOf e crcFn w n, fun k => ?_⟩
  rw [logical, logicalRow0_configOf, maskFF]

/-- Settles O47: row k by induction on the zero bytes, and P_ref turns the fold into CRC_FN. -/
theorem rowIsZeroByteSteps : Obligations.RowIsZeroByteSteps := by
  unfold Obligations.RowIsZeroByteSteps
  exact fun c k n => ⟨logical_eq_fold c k n, fun _ href => href.logical_eq k n⟩

/-- Settles O48: every row is linear by induction on the rows, and so its entry 0 is 0. -/
theorem rowsAreLinear : Obligations.RowsAreLinear := by
  unfold Obligations.RowsAreLinear
  exact fun _ hlin k => ⟨hlin.logical_xor k, hlin.logical_zeroByte k⟩

end Sys2Proof.Machine

/-! The slice accumulator: how a read's bytes enter acc. Under P_lin they enter as byte steps of rule R17 (rule R135), and
ENDIAN = BE keeps the byte-reversed image of what LE keeps (rule R133). -/

namespace Sys2Proof.Machine

/-! A word step as eight byte steps -/

theorem logicalFold_nil (c : Config) (w : Word) : logicalFold c w [] = w := rfl

theorem logicalFold_append (c : Config) (w : Word) (as bs : List Byte) :
    logicalFold c w (as ++ bs) = logicalFold c (logicalFold c w as) bs := by
  simp only [logicalFold_eq_foldl, List.foldl_append]

theorem PLin.logicalFold_xor {c : Config} (hlin : PLin c) (x y : Word) (bs : List Byte) :
    logicalFold c (x ^^^ y) bs = logicalFold c x (List.replicate bs.length 0) ^^^ logicalFold c y bs := by
  induction bs generalizing x y with
  | nil => rfl
  | cons b bs ih =>
    have hstep : logicalStep c (x ^^^ y) b = logicalStep c x 0 ^^^ logicalStep c y b := by
      simpa using hlin.logicalStep_xor x y 0 b
    rw [logicalFold, hstep, ih]
    rfl

/-- Under P_lin the first byte of a buffer contributes its entry of the row numbered by the bytes after it. -/
theorem PLin.logicalFold_cons {c : Config} (hlin : PLin c) (x : Word) (b : Byte) (bs : List Byte) :
    logicalFold c x (b :: bs) = logical c bs.length (byteOf x 0 ^^^ b) ^^^ logicalFold c (x >>> 8) bs := by
  rw [logicalFold, logicalStep, hlin.logicalFold_xor, ← logical_zero, ← logical_eq_fold, maskFF_xor, maskFF_zext64,
    maskFF_eq_byteOf]

theorem list_eq_of_length_eight {bs : List Byte} (h : bs.length = 8) :
    ∃ b0 b1 b2 b3 b4 b5 b6 b7, bs = [b0, b1, b2, b3, b4, b5, b6, b7] := by
  match bs, h with
  | [b0, b1, b2, b3, b4, b5, b6, b7], _ => exact ⟨b0, b1, b2, b3, b4, b5, b6, b7, rfl⟩

theorem shiftRight_eight_bytes (x : Word) : x >>> 8 >>> 8 >>> 8 >>> 8 >>> 8 >>> 8 >>> 8 >>> 8 = 0 := by
  simp only [← BitVec.shiftRight_add]
  exact BitVec.ushiftRight_eq_zero (Nat.le_refl 64)

/-- Rule R135: lane i of the word step is what byte i contributes to the fold. -/
theorem PLin.wordStep_eq_fold {c : Config} (hlin : PLin c) (hle : c.endian = .le) (x : Word) {bs : List Byte}
    (h : bs.length = 8) : wordStep .le (storedTable c) x bs = logicalFold c x bs := by
  obtain ⟨b0, b1, b2, b3, b4, b5, b6, b7, rfl⟩ := list_eq_of_length_eight h
  have hlane : ∀ i : Fin 8, byteOf (x ^^^ le64 [b0, b1, b2, b3, b4, b5, b6, b7]) i =
      byteOf x i ^^^ [b0, b1, b2, b3, b4, b5, b6, b7].getD i 0 := fun i => by rw [byteOf_xor, byteOf_le64]
  simp only [wordStep, hlane, lookup_storedTable, hle, orient, hlin.logicalFold_cons, byteOf_shiftRight, logicalFold_nil,
    shiftRight_eight_bytes, xorLanes]
  simp [BitVec.xor_assoc]

theorem byteStep_eq_logicalStep {c : Config} (hle : c.endian = .le) (x : Word) (b : Byte) :
    byteStep .le (storedTable c) x b = logicalStep c x b := by
  simp only [byteStep, lookup_storedTable, hle, orient]
  rfl

/-- Settles O49: the word step is the fold of the logical byte step, which the built table makes BSTEP's. -/
theorem wordStepIsEightByteSteps : Obligations.WordStepIsEightByteSteps := by
  unfold Obligations.WordStepIsEightByteSteps
  intro c acc bs hlin hle h
  have hfold := hlin.wordStep_eq_fold hle acc h
  have hstep : byteStep .le (storedTable c) = logicalStep c :=
    funext₂ fun x b => byteStep_eq_logicalStep hle x b
  exact ⟨hfold, by rw [hfold, logicalFold_eq_foldl, hstep]⟩

/-! The big-endian datapath is the mirror of the little-endian one -/

theorem orient_orient (e : Endian) (x : Word) : orient e (orient e x) = x := by
  cases e with
  | le => rfl
  | be => exact rev8_rev8 x

theorem rev8_shiftLeft (x : Word) : rev8 x <<< 8 = rev8 (x >>> 8) := by
  refine word_ext fun i h => ?_
  rw [byteOf_rev8 _ h, byteOf_shiftRight]
  cases i with
  | zero => exact (byteOf_shiftLeft_zero _).trans (byteOf_high x 8 (Nat.le_refl 8)).symm
  | succ i =>
    have hback : 7 - (i + 1) + 1 = 7 - i := by omega
    rw [byteOf_shiftLeft _ i h, byteOf_rev8 x (by omega), hback]

/-- The top byte of the mirrored accumulator is the low byte of the accumulator. -/
theorem maskFF_rev8_top (x : Word) : maskFF (rev8 x >>> 56) = maskFF x := by
  have htop : byteOf (rev8 x >>> 56) 0 = byteOf (rev8 x) 7 := by
    apply BitVec.eq_of_getLsbD_eq
    intro j hj
    simp [byteOf, hj]
  rw [maskFF_eq_byteOf, htop, byteOf_rev8 x (by decide), maskFF_eq_byteOf]

theorem xorLanes_rev (f : Fin 8 → Word) : (xorLanes fun i => f i.rev) = xorLanes f := by
  change f 7 ^^^ f 6 ^^^ f 5 ^^^ f 4 ^^^ f 3 ^^^ f 2 ^^^ f 1 ^^^ f 0 = _
  rw [xorLanes]
  ac_rfl

theorem rev8_xorLanes (f : Fin 8 → Word) : rev8 (xorLanes f) = xorLanes fun i => rev8 (f i) := by
  simp only [xorLanes, rev8_xor]

/-- Two tables, each entry of one the byte-reversal of the other's: what BUILD stores under BE and under LE (rule R103). -/
def Mirrored (t t' : Table) : Prop := ∀ k n, lookup t' k n = rev8 (lookup t k n)

theorem Mirrored.byteStep {t t' : Table} (ht : Mirrored t t') (x : Word) (b : Byte) :
    byteStep .be t' (rev8 x) b = rev8 (byteStep .le t x b) := by
  simp only [Machine.byteStep, maskFF_xor, maskFF_rev8_top, ht _ _, rev8_shiftLeft, rev8_xor]

theorem Mirrored.wordStep {t t' : Table} (ht : Mirrored t t') (x : Word) (bs : List Byte) :
    wordStep .be t' (rev8 x) bs = rev8 (wordStep .le t x bs) := by
  have hlane : ∀ i : Fin 8, byteOf (rev8 x ^^^ be64 bs) i = byteOf (x ^^^ le64 bs) i.rev := fun i => by
    rw [be64_eq_rev8_le64, ← rev8_xor, byteOf_rev8_fin]
  simp only [Machine.wordStep, hlane, ht _ _, rev8_xorLanes]
  rw [← xorLanes_rev]
  simp only [Fin.rev_rev]

/-- Rule R133: both kinds of read keep `acc_BE = rev8(acc_LE)`. -/
theorem Mirrored.combine {t t' : Table} (ht : Mirrored t t') (sz : ReadSize) (x : Word) (bs : List Byte) :
    combine sz .be t' (rev8 x) bs = rev8 (combine sz .le t x bs) := by
  cases sz with
  | byte => exact ht.byteStep x _
  | word => exact ht.wordStep x bs

/-! A read's bytes in logical orientation -/

/-- The same CRC_FN and ADDR_W under the given byte order. -/
def withEndian (c : Config) (e : Endian) : Config := { c with endian := e }

theorem logical_withEndian (c : Config) (e : Endian) (k : Nat) (n : Byte) :
    logical (withEndian c e) k n = logical c k n := by
  induction k generalizing n with
  | zero => rfl
  | succ k ih => rw [logical, ih, logical]; rfl

theorem logicalFold_withEndian (c : Config) (e : Endian) (w : Word) (bs : List Byte) :
    logicalFold (withEndian c e) w bs = logicalFold c w bs := by
  simp only [logicalFold_eq_foldl]
  rfl

theorem mirrored_storedTable {c d : Config} (hle : c.endian = .le) (hd : d = withEndian c .be) :
    Mirrored (storedTable c) (storedTable d) := by
  intro k n
  rw [hd, lookup_storedTable, lookup_storedTable, logical_withEndian, hle]
  rfl

/-- Rules R122, R124 under P_lin: with the little-endian table one read folds in its bytes. -/
theorem PLin.combine_le {c : Config} (hlin : PLin c) (hle : c.endian = .le) (sz : ReadSize) (x : Word)
    {bs : List Byte} (h : bs.length = sz.bytes) : combine sz .le (storedTable c) x bs = logicalFold c x bs := by
  cases sz with
  | byte =>
    obtain ⟨b, rfl⟩ := List.length_eq_one_iff.mp h
    exact byteStep_eq_logicalStep hle x b
  | word => exact hlin.wordStep_eq_fold hle x h

/-- Rule R136, one read: whatever ENDIAN is, acc in logical orientation takes the bytes in as S does. -/
theorem PLin.orient_combine {c : Config} (hlin : PLin c) (sz : ReadSize) (x : Word) {bs : List Byte}
    (h : bs.length = sz.bytes) :
    orient c.endian (combine sz c.endian (storedTable c) x bs) = logicalFold c (orient c.endian x) bs := by
  cases he : c.endian with
  | le => exact hlin.combine_le he sz x h
  | be =>
    have htwin : Mirrored (storedTable (withEndian c .le)) (storedTable c) :=
      mirrored_storedTable rfl (by cases c; cases he; rfl)
    have hcombine := htwin.combine sz (rev8 x) bs
    rw [rev8_rev8, PLin.combine_le (c := withEndian c .le) hlin rfl sz _ h, logicalFold_withEndian] at hcombine
    rw [hcombine]
    exact rev8_rev8 _

end Sys2Proof.Machine

/-! The engine's steps while COMPUTING, one at a time: acceptance (rule R120), the choice of the step (rule R121), the two
reads (rules R122 to R125), FINISH (rule R126) and ABORT (rule R127). -/

namespace Sys2Proof.Machine

/-! Acceptance and the choice of the step -/

theorem exec_compute_accepted {s : State} (hop : s.op = .idle) (hvalid : s.tvalid = true) (hrange : rangeOk s) :
    exec .compute s = .next (acceptCompute s) := by
  simp only [exec, execCompute, whenIdle_idle _ hop, whenTable_valid _ hvalid, if_pos hrange]

/-- Settles O14: the three checks pass, and acceptance latches the operands. -/
theorem computeLatchesItsOperands : Obligations.ComputeLatchesItsOperands := by
  unfold Obligations.ComputeLatchesItsOperands
  intro s hop hvalid hrange
  rw [exec_compute_accepted hop hvalid hrange, acceptCompute_eq]
  rfl

theorem enabledStep_finish {s : State} (hop : s.op = .computing) (h0 : s.rem = 0) : enabledStep s = some .finish := by
  simp only [enabledStep, hop, if_pos h0]

theorem enabledStep_byte {s : State} (hop : s.op = .computing) (h0 : s.rem ≠ 0) (hb : s.cur % 8 ≠ 0 ∨ s.rem < 8) :
    enabledStep s = some .bstep := by
  simp only [enabledStep, hop, if_neg h0, if_pos hb]

theorem enabledStep_word {s : State} (hop : s.op = .computing) (halign : s.cur % 8 = 0) (h8 : 8 ≤ s.rem) :
    enabledStep s = some .wstep := by
  have h0 : s.rem ≠ 0 := by omega
  have hb : ¬ (s.cur % 8 ≠ 0 ∨ s.rem < 8) := by omega
  simp only [enabledStep, hop, if_neg h0, if_neg hb]

/-- Settles O25, case by case. -/
theorem stepSelection : Obligations.StepSelection := by
  unfold Obligations.StepSelection
  intro s
  exact ⟨fun hop => by simp only [enabledStep, hop], fun hop => by simp only [enabledStep, hop], enabledStep_finish,
    enabledStep_byte, fun hop _ => enabledStep_word hop⟩

/-! The two reads, answered with data -/

theorem engineStep_byte {s : State} (hop : s.op = .computing) (h0 : s.rem ≠ 0) (hb : s.cur % 8 ≠ 0 ∨ s.rem < 8)
    (hin : s.cur < memSize s) (hf : busFaulted s.busFaults s.cur .byte = false) :
    engineStep s = .next { s with
      acc := byteStep s.cfg.endian s.table s.acc (raceRead s s.cur s.draws)
      cur := s.cur + 1
      rem := s.rem - 1
      reads := ⟨s.cur, .byte⟩ :: s.reads
      draws := s.draws + 1 } := by
  simp only [engineStep, enabledStep_byte hop h0 hb]
  exact bufferStep_data (sz := .byte) hin hf

theorem engineStep_word {s : State} (hop : s.op = .computing) (halign : s.cur % 8 = 0) (h8 : 8 ≤ s.rem)
    (hin : s.cur + 8 ≤ memSize s) (hf : busFaulted s.busFaults s.cur .word = false) :
    engineStep s = .next { s with
      acc := wordStep s.cfg.endian s.table s.acc
        ((List.range 8).map fun i => raceRead s (s.cur + i) (s.draws + i))
      cur := s.cur + 8
      rem := s.rem - 8
      reads := ⟨s.cur, .word⟩ :: s.reads
      draws := s.draws + 8 } := by
  simp only [engineStep, enabledStep_word hop halign h8]
  exact bufferStep_data (sz := .word) hin hf

/-- Settles O28: BSTEP's accumulator under LE is rule R122's. -/
theorem byteStepLittleEndian : Obligations.ByteStepLittleEndian := by
  unfold Obligations.ByteStepLittleEndian
  intro s hle hop h0 hb hin hf
  rw [engineStep_byte hop h0 hb hin hf, hle, byteStep]

/-- Settles O29: BSTEP's accumulator under BE is rule R123's. -/
theorem byteStepBigEndian : Obligations.ByteStepBigEndian := by
  unfold Obligations.ByteStepBigEndian
  intro s hbe hop h0 hb hin hf
  rw [engineStep_byte hop h0 hb hin hf, hbe, byteStep]

/-- Settles O30: lane i of WSTEP under LE looks up row 7 - i, as rule R124 writes out. -/
theorem wordStepLittleEndian : Obligations.WordStepLittleEndian := by
  unfold Obligations.WordStepLittleEndian
  intro s x hle hop halign h8 hin hf hx
  rw [engineStep_word hop halign h8 hin hf, hle, wordStep, ← hx]
  rfl

/-- Settles O31: lane i of WSTEP under BE looks up row i, as rule R125 writes out. -/
theorem wordStepBigEndian : Obligations.WordStepBigEndian := by
  unfold Obligations.WordStepBigEndian
  intro s x hbe hop halign h8 hin hf hx
  rw [engineStep_word hop halign h8 hin hf, hbe, wordStep, ← hx]
  rfl

/-! FINISH and ABORT -/

theorem engineStep_finish {s : State} (hop : s.op = .computing) (h0 : s.rem = 0) :
    engineStep s = .next (finish s) := by
  simp only [engineStep, enabledStep_finish hop h0]

/-- Settles O32: FINISH writes CRC_OUT and op, and draws the working state anew. -/
theorem finishWritesCrcOut : Obligations.FinishWritesCrcOut := by
  unfold Obligations.FinishWritesCrcOut
  intro s hop h0
  exact ⟨finish s, engineStep_finish hop h0, finish_eq s⟩

/-- An address of MEM fits in ERR_ADDR (rules R8, R34). -/
theorem Inv.toNat_address {s : State} (hs : Inv s) {a : Nat} (ha : a < memSize s) : (BitVec.ofNat 64 a).toNat = a := by
  obtain ⟨-, hw⟩ := hs.cfgLegal
  have hsize : memSize s ≤ 2 ^ 64 := Nat.pow_le_pow_right (by decide) hw
  exact (BitVec.toNat_ofNat a 64).trans (Nat.mod_eq_of_lt (by omega))

theorem Inv.cur_inside {s : State} (hs : Inv s) (hop : s.op = .computing) (h0 : s.rem ≠ 0) : s.cur < memSize s := by
  have hread := hs.read_inside hop h0
  have hpos := nextSize_pos s
  omega

/-- Settles O33: the read lies inside MEM, so the step is its ABORT, and its address fits in ERR_ADDR. -/
theorem abortOnBusFault : Obligations.AbortOnBusFault := by
  unfold Obligations.AbortOnBusFault
  intro s sz hs hop h0 hsz hf
  have hsize : sz = nextSize s := hsz
  subst hsize
  refine ⟨abort s.cur (noteRead s s.cur (nextSize s)), ?_, hs.toNat_address (hs.cur_inside hop h0), ?_⟩
  · rw [engineStep_reads hop h0]
    exact bufferStep_fault (hs.read_inside hop h0) hf
  · rw [abort_eq]
    rfl

/-- Settles O34: the one read of the step is inside MEM; an ABORT ends the operation, and data move the cursor on. -/
theorem cursorArithmeticIsExact : Obligations.CursorArithmeticIsExact := by
  unfold Obligations.CursorArithmeticIsExact
  intro s hs hop h0
  have hinside := hs.read_inside hop h0
  have hle := nextSize_le h0
  have hend := (hs.cursorInside hop).resolve_left h0
  rw [engineStep_reads hop h0]
  rcases bufferStep_cases (nextSize s) s with ⟨hout, -⟩ | ⟨-, -, hstep⟩ | ⟨-, -, hstep⟩
  · exact absurd hinside hout
  · exact ⟨_, nextSize s, hstep, rfl, hinside, hle, nofun⟩
  · have hsum : s.cur + (nextSize s).bytes + (s.rem - (nextSize s).bytes) = s.cur + s.rem := by omega
    exact ⟨_, nextSize s, hstep, rfl, hinside, hle, fun _ => ⟨rfl, rfl, hsum, hsum.trans_le hend⟩⟩

end Sys2Proof.Machine

/-! Whole COMPUTEs with the engine's turns alone: the planned reads one by one (rules R62, R129, R130), and the FINISH or
the ABORT that ends them (rules R126, R127). -/

namespace Sys2Proof.Machine

/-- What the next read, answered with data, makes of a running COMPUTE (rules R122 to R125). -/
def afterRead (s : State) : State :=
  { s with
    acc := combine (nextSize s) s.cfg.endian s.table s.acc
      ((List.range (nextSize s).bytes).map fun i => raceRead s (s.cur + i) (s.draws + i))
    cur := s.cur + (nextSize s).bytes
    rem := s.rem - (nextSize s).bytes
    reads := ⟨s.cur, nextSize s⟩ :: s.reads
    draws := s.draws + (nextSize s).bytes }

/-- Rules R41, R128: the bytes left of a COMPUTE lie inside MEM. -/
def CursorInside (s : State) : Prop := s.rem = 0 ∨ s.cur + s.rem ≤ memSize s

theorem CursorInside.read_inside {s : State} (hin : CursorInside s) (h0 : s.rem ≠ 0) :
    s.cur + (nextSize s).bytes ≤ memSize s := by
  have hend := hin.resolve_left h0
  have hle := nextSize_le h0
  omega

theorem CursorInside.afterRead {s : State} (hin : CursorInside s) (h0 : s.rem ≠ 0) : CursorInside (afterRead s) := by
  have hsum : s.cur + (nextSize s).bytes + (s.rem - (nextSize s).bytes) = s.cur + s.rem := by
    have hle := nextSize_le h0
    omega
  exact .inr (hsum.trans_le (hin.resolve_left h0))

/-- A planned read lies inside the buffer. -/
theorem readPlan_inside (a n : Nat) : ∀ r ∈ readPlan a n, a ≤ r.addr ∧ r.addr + r.size.bytes ≤ a + n := by
  induction a, n using reads_induction with
  | done a => simp [readPlan_zero]
  | read a n h0 ih =>
    have hle := sizeAt_le a h0
    rw [readPlan_cons a n h0, List.forall_mem_cons]
    refine ⟨⟨Nat.le_refl a, by simpa using hle⟩, fun r hr => ?_⟩
    obtain ⟨hlo, hhi⟩ := ih r hr
    omega

theorem BusQuiet.answers_plan {s : State} {a n : Nat} (hq : BusQuiet s a n) :
    ∀ r ∈ readPlan a n, busFaulted s.busFaults r.addr r.size = false := fun r hr =>
  have ⟨hlo, hhi⟩ := readPlan_inside a n r hr
  hq r.addr r.size hlo hhi

/-- Rule R130: no read of the plan takes less than a byte. -/
theorem readPlan_length_le (a n : Nat) : (readPlan a n).length ≤ n := by
  induction a, n using reads_induction with
  | done a => simp [readPlan_zero]
  | read a n h0 ih =>
    have hpos := (sizeAt a n).bytes_pos
    rw [readPlan_cons a n h0, List.length_cons]
    omega

theorem rem_ne_zero_of_plan {a n : Nat} {r : ReadReq} {rs : List ReadReq} (h : readPlan a n = r :: rs) : n ≠ 0 := by
  rintro rfl
  rw [readPlan_zero] at h
  cases h

theorem rem_eq_zero_of_plan {a n : Nat} (h : readPlan a n = []) : n = 0 := by
  by_contra h0
  rw [readPlan_cons a n h0] at h
  cases h

/-- The head of the plan is the read the engine makes next, and its tail is the plan of the bytes after it. -/
theorem plan_of_next {s : State} {r : ReadReq} {rs : List ReadReq} (h : readPlan s.cur s.rem = r :: rs) :
    r = ⟨s.cur, nextSize s⟩ ∧ readPlan (afterRead s).cur (afterRead s).rem = rs := by
  rw [readPlan_cons s.cur s.rem (rem_ne_zero_of_plan h)] at h
  obtain ⟨hr, hrs⟩ := List.cons.inj h
  exact ⟨hr.symm, hrs⟩

/-- Some reads of a COMPUTE on: `done` has been read and `left` is the plan that remains, and nothing but the working state,
the record of requests and the draw counter has changed. -/
structure Advanced (s t : State) (done left : List ReadReq) : Prop where
  frame : t = { s with acc := t.acc, cur := t.cur, rem := t.rem, reads := t.reads, draws := t.draws }
  reads : t.reads = done.reverse ++ s.reads
  plan : readPlan t.cur t.rem = left
  inside : CursorInside t

/-- The loop of rule R129: reads that MEM answers with data are made one engine step each, in the order of the plan. -/
theorem engineRun_reads (done left : List ReadReq) : ∀ s : State, s.op = .computing → CursorInside s →
    readPlan s.cur s.rem = done ++ left → (∀ r ∈ done, busFaulted s.busFaults r.addr r.size = false) →
    ∃ t, Advanced s t done left ∧ ∀ m, engineRun (done.length + m) s = engineRun m t := by
  induction done with
  | nil => exact fun s _ hin hplan _ => ⟨s, ⟨rfl, rfl, hplan, hin⟩, fun m => by rw [List.length_nil, Nat.zero_add]⟩
  | cons r rs ih =>
    intro s hop hin hplan hdata
    have h0 : s.rem ≠ 0 := rem_ne_zero_of_plan hplan
    obtain ⟨rfl, hrest⟩ := plan_of_next hplan
    obtain ⟨hfirst, hdata⟩ := List.forall_mem_cons.mp hdata
    obtain ⟨t, ht, hrun⟩ := ih (afterRead s) hop (hin.afterRead h0) hrest hdata
    refine ⟨t, ⟨ht.frame, ?_, ht.plan, ht.inside⟩, fun m => ?_⟩
    · rw [ht.reads, List.reverse_cons, List.append_assoc]
      rfl
    · calc engineRun (rs.length + 1 + m) s
        _ = engineRun (rs.length + m + 1) s := by rw [Nat.add_right_comm]
        _ = engineRun (rs.length + m) (afterRead s) := engineRun_data _ hop h0 (hin.read_inside h0) hfirst
        _ = engineRun m t := hrun m

theorem Advanced.op_eq {s t : State} {done left : List ReadReq} (h : Advanced s t done left) : t.op = s.op := by
  rw [h.frame]

theorem Advanced.err_eq {s t : State} {done left : List ReadReq} (h : Advanced s t done left) : t.err = s.err := by
  rw [h.frame]

theorem Advanced.memSize_eq {s t : State} {done left : List ReadReq} (h : Advanced s t done left) :
    memSize t = memSize s := by
  rw [h.frame]
  rfl

theorem Advanced.registers_eq {s t : State} {done left : List ReadReq} (h : Advanced s t done left) :
    t.crcOut = s.crcOut ∧ t.table = s.table ∧ t.tvalid = s.tvalid ∧ t.crcIn = s.crcIn ∧ t.addr = s.addr ∧
      t.len = s.len ∧ t.tidx = s.tidx ∧ t.tdata = s.tdata ∧ t.mem = s.mem := by
  rw [h.frame]
  exact ⟨rfl, rfl, rfl, rfl, rfl, rfl, rfl, rfl, rfl⟩

/-- Settles O51: `k` planned reads in `k` steps, and with none left the next step is FINISH. -/
theorem computeTakesItsPhases : Obligations.ComputeTakesItsPhases := by
  unfold Obligations.ComputeTakesItsPhases
  intro s hs hop hq
  have hdata := hq.answers_plan
  rw [stepCount_eq]
  refine ⟨fun k hk => ?_, ?_, Nat.succ_le_succ (readPlan_length_le s.cur s.rem)⟩
  · obtain ⟨t, ht, hrun⟩ := engineRun_reads ((readPlan s.cur s.rem).take k) ((readPlan s.cur s.rem).drop k) s hop
      (hs.cursorInside hop) (List.take_append_drop k _).symm fun r hr => hdata r (List.mem_of_mem_take hr)
    have hlen : ((readPlan s.cur s.rem).take k).length = k := List.length_take_of_le (Nat.le_of_lt_succ hk)
    have hrun := hrun 0
    rw [hlen] at hrun
    exact ⟨{ t with sched := [] }, hrun, ht.op_eq.trans hop, ht.reads⟩
  · obtain ⟨t, ht, hrun⟩ := engineRun_reads (readPlan s.cur s.rem) [] s hop (hs.cursorInside hop)
      (List.append_nil _).symm hdata
    have hrun := (hrun 1).trans (engineRun_finish 0 (ht.op_eq.trans hop) (rem_eq_zero_of_plan ht.plan))
    exact ⟨_, hrun, rfl, ht.err_eq, ht.reads⟩

/-- Settles O52: the reads before the faulting one are made, and the step that makes it is ABORT. -/
theorem firstFaultEndsTheCompute : Obligations.FirstFaultEndsTheCompute := by
  unfold Obligations.FirstFaultEndsTheCompute
  intro s j r hs hop hr hdata hf
  obtain ⟨hj, hget⟩ := List.getElem?_eq_some_iff.mp hr
  have hsplit : (readPlan s.cur s.rem).drop j = r :: (readPlan s.cur s.rem).drop (j + 1) := by
    rw [List.drop_eq_getElem_cons hj, hget]
  have hbefore : ∀ q ∈ (readPlan s.cur s.rem).take j, busFaulted s.busFaults q.addr q.size = false := by
    intro q hq
    obtain ⟨i, hi, hqi⟩ := List.mem_take_iff_getElem.mp hq
    exact hdata i q (by omega) (List.getElem?_eq_some_iff.mpr ⟨by omega, hqi⟩)
  obtain ⟨t, ht, hrun⟩ := engineRun_reads _ _ s hop (hs.cursorInside hop)
    (List.take_append_drop j (readPlan s.cur s.rem)).symm hbefore
  have hplan := ht.plan.trans hsplit
  have h0 : t.rem ≠ 0 := rem_ne_zero_of_plan hplan
  obtain ⟨rfl, -⟩ := plan_of_next hplan
  have hinside := ht.inside.read_inside h0
  have hfault : busFaulted t.busFaults t.cur (nextSize t) = true := by rw [ht.frame]; exact hf
  have hsize := ht.memSize_eq
  have hpos := (nextSize t).bytes_pos
  have haddr : (BitVec.ofNat 64 t.cur).toNat = t.cur := hs.toNat_address (by omega)
  have hrun := (hrun 1).trans (engineRun_fault 0 (ht.op_eq.trans hop) h0 hinside hfault)
  rw [List.length_take_of_le hj.le] at hrun
  have hreads : (readPlan s.cur s.rem).take (j + 1) = (readPlan s.cur s.rem).take j ++ [⟨t.cur, nextSize t⟩] := by
    rw [List.take_add_one, hr]
    rfl
  refine ⟨_, hrun, rfl, rfl, haddr, ?_⟩
  simp [ht.registers_eq, ht.reads, hreads]

/-! From acceptance to FINISH -/

/-- Settles O54: after acceptance no byte is left, so the first step is FINISH, and it undoes the orientation of CRC_IN. -/
theorem zeroLengthReturnsCrcIn : Obligations.ZeroLengthReturnsCrcIn := by
  unfold Obligations.ZeroLengthReturnsCrcIn
  intro s hop hvalid hlen
  have h0 : s.len.toNat = 0 := congrArg BitVec.toNat hlen
  exact ⟨acceptCompute s, _, exec_compute_accepted hop hvalid (.inl h0), engineRun_finish 0 rfl h0, rfl, rfl,
    orient_orient s.cfg.endian s.crcIn, rfl⟩

/-- Every turn is the engine's, to the end of the interleaving. -/
def EngineTurns (s : State) : Prop := ∀ t ∈ s.sched, t = .engine

theorem EngineTurns.popTurn {s : State} (h : EngineTurns s) : EngineTurns (popTurn s) :=
  fun t ht => h t (List.mem_of_mem_tail ht)

/-- Past the end of the interleaving the engine goes on as long as an operation runs (log entry 10). -/
theorem EngineTurns.turnOf_eq {s : State} (h : EngineTurns s) (hop : s.op = .computing) : turnOf s = .engine := by
  cases hsched : s.sched with
  | nil => simp only [turnOf, hsched, defaultTurn, hop]
  | cons t ts =>
    simp only [turnOf, hsched]
    exact h t (by simp [hsched])

theorem step_engine {s : State} (hturn : turnOf s = .engine) : step s = engineStep (popTurn s) := by
  rw [step_eq, hturn]
  rfl

theorem step_finish {s : State} (hturn : turnOf s = .engine) (hop : s.op = .computing) (h0 : s.rem = 0) :
    step s = .next (finish (popTurn s)) :=
  (step_engine hturn).trans (engineStep_finish (s := popTurn s) hop h0)

theorem step_read {s : State} (hturn : turnOf s = .engine) (hop : s.op = .computing) (h0 : s.rem ≠ 0)
    (hin : s.cur + (nextSize s).bytes ≤ memSize s) (hf : busFaulted s.busFaults s.cur (nextSize s) = false) :
    step s = .next (popTurn (afterRead s)) := by
  rw [step_engine hturn, engineStep_reads (s := popTurn s) hop h0]
  exact bufferStep_data (s := popTurn s) hin hf

/-- A COMPUTE whose planned reads are all answered with data comes to its FINISH when the engine has every turn. -/
theorem finishingRun_exists (lo hi : Nat) (plan : List ReadReq) : ∀ s : State, s.op = .computing → CursorInside s →
    EngineTurns s → readPlan s.cur s.rem = plan → (∀ r ∈ plan, busFaulted s.busFaults r.addr r.size = false) →
    ∃ u, FinishingRun lo hi s u := by
  induction plan with
  | nil =>
    intro s hop _ hturns hplan _
    have h0 := rem_eq_zero_of_plan hplan
    have hturn := hturns.turnOf_eq hop
    exact ⟨_, .finish hop hturn (enabledStep_finish hop h0) (step_finish hturn hop h0)⟩
  | cons r rs ih =>
    intro s hop hin hturns hplan hdata
    have h0 := rem_ne_zero_of_plan hplan
    have hturn := hturns.turnOf_eq hop
    obtain ⟨rfl, hrest⟩ := plan_of_next hplan
    obtain ⟨hfirst, hdata⟩ := List.forall_mem_cons.mp hdata
    obtain ⟨u, hu⟩ := ih (popTurn (afterRead s)) hop (hin.afterRead h0) hturns.popTurn hrest hdata
    exact ⟨u, .more hop (by rw [hturn]; nofun) (fun _ _ _ hhost => by rw [hturn] at hhost; cases hhost)
      (step_read hturn hop h0 (hin.read_inside h0) hfirst) hu⟩

/-- Settles O57: COMPUTE is accepted, and the reads of its plan are answered with data. -/
theorem computeFinishesOnAQuietBus : Obligations.ComputeFinishesOnAQuietBus := by
  unfold Obligations.ComputeFinishesOnAQuietBus
  intro s hop hvalid hrange hq
  obtain ⟨u, hu⟩ := finishingRun_exists s.addr.toNat (s.addr.toNat + s.len.toNat) _
    (acceptCompute { s with sched := List.replicate (stepCount s.addr.toNat s.len.toNat) .engine })
    rfl hrange (fun _ ht => List.eq_of_mem_replicate ht) rfl hq.answers_plan
  exact ⟨u, hop, _, exec_compute_accepted (s := { s with sched := _ }) hop hvalid hrange, rfl, hu⟩

end Sys2Proof.Machine

/-! A COMPUTE under any interleaving: what its FINISH writes to CRC_OUT, and what follows for one and for chained COMPUTEs
(rules R136 to R138). -/

namespace Sys2Proof.Machine

/-- What CRC_OUT comes to when the bytes left are read as MEM holds them now: they are folded into acc as rule R17 says. -/
def crcDue (s : State) : Word :=
  logicalFold s.cfg (orient s.cfg.endian s.acc) (bytesAt s.mem s.cur s.rem)

/-- The loop invariant of a COMPUTE over the buffer `[lo, hi)`: a good state, the bytes left inside the buffer, and no host
store to the buffer since acceptance. -/
structure Undisturbed (lo hi : Nat) (s : State) : Prop where
  good : Inv s
  fromLo : lo ≤ s.cur
  toHi : s.cur + s.rem ≤ hi
  unraced : ∀ x, lo ≤ x → x < hi → racedValues s.raced x = []

theorem raceRead_unraced {s : State} {a : Nat} (h : racedValues s.raced a = []) (d : Nat) :
    raceRead s a d = s.mem.read a := by
  simp only [raceRead, h]

/-- The next read takes the bytes of MEM. -/
theorem Undisturbed.read_bytes {lo hi : Nat} {s : State} (h : Undisturbed lo hi s) (h0 : s.rem ≠ 0) :
    ((List.range (nextSize s).bytes).map fun i => raceRead s (s.cur + i) (s.draws + i)) =
      bytesAt s.mem s.cur (nextSize s).bytes := by
  have hle := nextSize_le h0
  have hlo := h.fromLo
  have hhi := h.toHi
  refine List.map_congr_left fun i hi => ?_
  rw [List.mem_range] at hi
  exact raceRead_unraced (h.unraced _ (by omega) (by omega)) _

/-- Rules R122 to R125: a read answered with data takes its bytes from the bytes left, so that what is due stays. -/
theorem Undisturbed.crcDue_afterRead {lo hi : Nat} {s : State} (h : Undisturbed lo hi s) (hlin : PLin s.cfg)
    (hop : s.op = .computing) (h0 : s.rem ≠ 0) : crcDue (afterRead s) = crcDue s := by
  have htable := h.good.tableBuilt (h.good.computingValid hop)
  have hsplit : bytesAt s.mem s.cur s.rem = bytesAt s.mem s.cur (nextSize s).bytes ++
      bytesAt s.mem (s.cur + (nextSize s).bytes) (s.rem - (nextSize s).bytes) := by
    rw [← bytesAt_append, Nat.add_sub_cancel' (nextSize_le h0)]
  have hacc : orient s.cfg.endian (afterRead s).acc =
      logicalFold s.cfg (orient s.cfg.endian s.acc) (bytesAt s.mem s.cur (nextSize s).bytes) := by
    simp only [afterRead, htable, h.read_bytes h0]
    exact hlin.orient_combine _ _ (by simp [bytesAt])
  calc crcDue (afterRead s)
    _ = logicalFold s.cfg (orient s.cfg.endian (afterRead s).acc)
          (bytesAt s.mem (s.cur + (nextSize s).bytes) (s.rem - (nextSize s).bytes)) := rfl
    _ = crcDue s := by rw [hacc, ← logicalFold_append, ← hsplit, crcDue]

/-- A host store outside the buffer leaves the bytes left. -/
theorem Undisturbed.bytesAt_store {lo hi a : Nat} {b : Byte} {s : State} (h : Undisturbed lo hi s)
    (ha : a < lo ∨ hi ≤ a) : bytesAt (s.mem.write a b) s.cur s.rem = bytesAt s.mem s.cur s.rem := by
  have hlo := h.fromLo
  have hhi := h.toHi
  exact bytesAt_congr fun x _ _ => memory_read_write_ne h.good.memCanonical b (by omega)

/-- A step of a run that still computes keeps the loop invariant and what is due. -/
theorem Happens.keeps_crcDue {lo hi : Nat} {v w : State} (hap : Happens v w) (h : Undisturbed lo hi v)
    (hlin : PLin v.cfg) (hv : v.op = .computing) (hw : w.op = .computing)
    (hstore : ∀ a b rest, turnOf v = .host → v.host = .store a b :: rest → a < lo ∨ hi ≤ a) :
    Undisturbed lo hi w ∧ crcDue w = crcDue v := by
  have hgood := hap.keeps_inv h.good
  cases hap with
  | illegal _ _ _ _ _ hidle | nop _ _ _ _ hidle | build _ _ _ _ hidle | compute _ _ _ _ hidle | range _ _ _ _ hidle
  | noTable _ _ _ _ hidle | rdtab _ _ _ _ hidle | engineIdle _ hidle => rw [hv] at hidle; cases hidle
  | buildDone | finish | abort | reset => cases hw
  | data _ _ h0 =>
    have hle := nextSize_le h0
    have hlo := h.fromLo
    have hhi := h.toHi
    have hsum : v.cur + (nextSize v).bytes + (v.rem - (nextSize v).bytes) ≤ hi := by omega
    exact ⟨⟨hgood, Nat.le_add_right_of_le hlo, hsum, h.unraced⟩, h.crcDue_afterRead hlin hv h0⟩
  | store a b rest hturn hhost =>
    have hout := hstore a b rest hturn hhost
    refine ⟨⟨hgood, h.fromLo, h.toHi, fun x hlo hhi => ?_⟩, ?_⟩
    · simp only [if_pos hv]
      rw [racedValues_cons_ne _ _ _ _ (by omega)]
      exact h.unraced x hlo hhi
    · exact congrArg (logicalFold v.cfg (orient v.cfg.endian v.acc)) (h.bytesAt_store hout)
  | _ => exact ⟨⟨hgood, h.fromLo, h.toHi, h.unraced⟩, rfl⟩

theorem FinishingRun.computing {lo hi : Nat} {v u : State} (h : FinishingRun lo hi v u) : v.op = .computing := by
  cases h <;> assumption

theorem rem_eq_zero_of_finish {s : State} (hop : s.op = .computing) (h : enabledStep s = some .finish) : s.rem = 0 := by
  by_contra h0
  simp only [enabledStep, hop, if_neg h0] at h
  split at h <;> cases h

/-- The loop of a COMPUTE, by induction over the run: its FINISH writes what is due. -/
theorem FinishingRun.crcOut_eq {lo hi : Nat} {v u : State} (hrun : FinishingRun lo hi v u) (hlin : PLin v.cfg)
    (h : Undisturbed lo hi v) : u.crcOut = crcDue v := by
  induction hrun with
  | finish hop hturn hstep hnext =>
    have h0 := rem_eq_zero_of_finish hop hstep
    rw [step_finish hturn hop h0] at hnext
    cases hnext
    rw [finish_crcOut, crcDue, h0]
    rfl
  | more hop _ hstore hnext hrest ih =>
    have hap := step_happens hnext
    obtain ⟨hw, hdue⟩ := hap.keeps_crcDue h hlin hop hrest.computing hstore
    rw [ih (hap.cfg_eq ▸ hlin) hw, hdue]

theorem Inv.acceptCompute {s : State} (hs : Inv s) (hvalid : s.tvalid = true) (hrange : rangeOk s) :
    Inv (acceptCompute s) :=
  { hs with
    errDefined := Nat.zero_le 5
    buildingInvalid := nofun
    computingValid := fun _ => hvalid
    cursorInside := fun _ => hrange
    remBounded := fun _ => s.len.isLt }

/-- The COMPUTE passed the three checks, and its run starts at acceptance. -/
theorem ComputesTo.accepted {s u : State} (h : ComputesTo s u) : s.tvalid = true ∧ rangeOk s ∧
    FinishingRun s.addr.toNat (s.addr.toNat + s.len.toNat) (acceptCompute s) u := by
  obtain ⟨hop, t, hexec, ht, hrun⟩ := h
  rcases exec_cases .compute s with ⟨hbusy, -⟩ | ⟨-, hi, -⟩ | ⟨-, hi, -⟩ | ⟨-, -, hvalid, hrange, e⟩ | ⟨-, -, -, -, e⟩ |
    ⟨-, -, -, e⟩ | ⟨-, hi, -⟩
  · exact absurd hop hbusy
  · cases hi
  · cases hi
  · cases e.symm.trans hexec
    exact ⟨hvalid, hrange, hrun⟩
  · cases e.symm.trans hexec
    exact nomatch hop.symm.trans ht
  · cases e.symm.trans hexec
    exact nomatch hop.symm.trans ht
  · cases hi

/-- Rule R136: at acceptance S*(CRC_IN, B) is due, whichever orientation acc starts in. -/
theorem ComputesTo.crcOut_eq {s u : State} (h : ComputesTo s u) (hs : Inv s) (hlin : PLin s.cfg) :
    u.crcOut = logicalFold s.cfg s.crcIn (bytesAt s.mem s.addr.toNat s.len.toNat) := by
  obtain ⟨hvalid, hrange, hrun⟩ := h.accepted
  have hstart : Undisturbed s.addr.toNat (s.addr.toNat + s.len.toNat) (acceptCompute s) :=
    ⟨hs.acceptCompute hvalid hrange, Nat.le_refl _, Nat.le_refl _, fun _ _ _ => rfl⟩
  rw [hrun.crcOut_eq hlin hstart]
  exact congrArg (logicalFold s.cfg · (bytesAt s.mem s.addr.toNat s.len.toNat)) (orient_orient s.cfg.endian s.crcIn)

/-- Settles O58: acceptance meets the loop invariant, and FINISH writes what is due there. -/
theorem computeIsTheByteFold : Obligations.ComputeIsTheByteFold := by
  unfold Obligations.ComputeIsTheByteFold
  exact fun s u hs hlin h => h.crcOut_eq hs hlin

/-- Settles O59: P_ref makes the fold CRC_FN's value. -/
theorem computeEqualsTheReference : Obligations.ComputeEqualsTheReference := by
  unfold Obligations.ComputeEqualsTheReference
  intro crcFn s u hs _ hlin href h
  rw [h.crcOut_eq hs hlin, href]

/-- Settles O60: the fold over joined bytes is the fold over the second part from that over the first. -/
theorem chainedComputesAgree : Obligations.ChainedComputesAgree := by
  unfold Obligations.ChainedComputesAgree
  intro s1 u1 s2 u2 s3 u3 hs1 hs2 hs3 hlin hcfg2 hcfg3 h1 h2 h3 hin2 hin3 hbytes
  rw [h3.crcOut_eq hs3 (hcfg3 ▸ hlin), h2.crcOut_eq hs2 (hcfg2 ▸ hlin), hbytes, logicalFold_append, hcfg3, hcfg2, hin3,
    hin2, h1.crcOut_eq hs1 hlin]

end Sys2Proof.Machine

/-! Two instances that differ only in ENDIAN, step by step: what one answers the other answers, and they stay twins (rules
R56, R133, R134). -/

namespace Sys2Proof.Machine

/-- The outcomes of twins agree: twin next states, or the same stop. -/
def Matched (o p : Out) : Prop :=
  match o with
  | .next s => ∃ t, p = .next t ∧ Twin s t
  | .fault r => p = .fault r
  | .refused r => p = .refused r

theorem Twin.next {s t : State} (h : Twin s t) : Matched (.next s) (.next t) := ⟨t, rfl, h⟩

theorem offsetOf_of_regAt {off : Nat} {r : RegName} (hr : regAt off = some r) : off = offsetOf r := by
  simp only [regAt] at hr
  repeat' split at hr
  all_goals cases hr
  all_goals assumption

theorem engineStep_idle (hop : s.op = .idle) : engineStep s = .next s := by
  simp only [engineStep, enabledStep, hop]

section
variable {s t : State} (h : Twin s t)
include h

/-! What twins agree on -/

theorem Twin.endian_eq : t.cfg.endian = .be := by rw [h.cfg]

theorem Twin.memSize_eq : memSize t = memSize s := by rw [memSize, h.cfg, memSize]

theorem Twin.rangeOk_iff : rangeOk t ↔ rangeOk s := by rw [rangeOk, h.len, h.addr, h.memSize_eq]

theorem Twin.turnOf_eq : turnOf t = turnOf s := by simp only [turnOf, defaultTurn, h.sched, h.op]

theorem Twin.nextSize_eq : nextSize t = nextSize s := by rw [nextSize, h.cur, h.rem, nextSize]

theorem Twin.raceRead_eq (a d : Nat) : raceRead t a d = raceRead s a d := by
  rw [raceRead, raceRead, h.raced, h.mem]

theorem Twin.mirrored (hvalid : s.tvalid = true) : Mirrored s.table t.table := h.table hvalid

theorem Twin.busyFlag_eq : busyFlag t = busyFlag s := by rw [busyFlag, h.op, busyFlag]

/-- Rule R25: BIGEND is the only bit of STATUS in which twins differ. -/
theorem Twin.statusWord_eq : statusWord t = statusWord s ^^^ 0x4#64 := by
  have hbe : bigEndFlag t = true := bigEndFlag_eq_true.mpr h.endian_eq
  have hle : bigEndFlag s = false := by simp [bigEndFlag, h.isLe]
  have hbit : flagWord true <<< 2 = (flagWord false <<< 2) ^^^ 0x4#64 := by decide
  rw [statusWord, statusWord, h.err, h.tvalid, h.busyFlag_eq, hbe, hle, hbit]
  ac_rfl

/-- Rule R56: what the two hosts read at the same offset. -/
theorem Twin.regRead_eq (off : Nat) : regRead off t = twinValue off (regRead off s) := by
  by_cases hstatus : off = offsetOf .status
  · subst hstatus
    exact h.statusWord_eq
  by_cases htdata : off = offsetOf .tdata
  · subst htdata
    exact h.tdata
  rw [twinValue, if_neg hstatus, if_neg htdata, regRead, regRead]
  cases hr : regAt off with
  | none => rfl
  | some r =>
    cases r with
    | status => exact absurd (offsetOf_of_regAt hr) hstatus
    | tdata => exact absurd (offsetOf_of_regAt hr) htdata
    | cmd => rfl
    | crcIn => exact h.crcIn
    | addr => exact h.addr
    | len => exact h.len
    | crcOut => exact h.crcOut
    | tidx => exact h.tidx
    | errAddr => exact h.errAddr

/-! The shared operations keep twins -/

theorem Twin.reject (c : ErrCode) : Twin (reject c s) (reject c t) := { h with err := rfl }

theorem Twin.accept : Twin (accept s) (accept t) := { h with err := rfl }

theorem Twin.setHost (p : List HostOp) : Twin (s.setHost p) (t.setHost p) := { h with host := rfl }

theorem Twin.popTurn : Twin (popTurn s) (popTurn t) := { h with sched := congrArg List.tail h.sched }

/-- Outside COMPUTING the working state is drawn alike, and nothing is asked of acc. -/
theorem Twin.freeWork (hop : s.op ≠ .computing) : Twin (freeWork s) (freeWork t) :=
  { h with
    acc := fun hc => absurd hc hop
    cur := by rw [freeWork_cur, h.memSize_eq, h.draws, freeWork_cur]
    rem := by rw [freeWork_rem, h.draws, freeWork_rem]
    draws := congrArg (· + 1) h.draws }

theorem Twin.resetEvent : Twin (resetEvent s) (resetEvent t) := by
  have hrev : (0 : Word) = rev8 0 := by decide
  rw [resetEvent_eq, resetEvent_eq]
  exact { h with
    op := rfl
    tvalid := rfl
    err := rfl
    crcIn := rfl
    addr := rfl
    len := rfl
    crcOut := rfl
    tidx := rfl
    tdata := hrev
    errAddr := rfl
    table := nofun
    acc := nofun
    cur := by rw [h.memSize_eq, h.draws]
    rem := by simp only [h.draws]
    draws := congrArg (· + 2) h.draws }

theorem Twin.noteRegRead (off : Nat) : Twin (noteRegRead off s) (noteRegRead off t) :=
  { h with
    trace := by
      show (off, regRead off t) :: t.trace = (off, twinValue off (regRead off s)) :: s.trace.map _
      rw [h.regRead_eq, h.trace] }

/-! Commands and register writes -/

theorem Twin.whenIdle {k k' : State → Out} (hk : Matched (k s) (k' t)) : Matched (whenIdle s k) (whenIdle t k') := by
  by_cases hop : s.op = .idle
  · rw [whenIdle_idle k hop, whenIdle_idle k' (h.op.trans hop)]
    exact hk
  · rw [whenIdle_busy k hop, whenIdle_busy k' (h.op ▸ hop)]
    exact (h.reject .busy).next

theorem Twin.whenTable {k k' : State → Out} (hk : s.tvalid = true → Matched (k s) (k' t)) :
    Matched (whenTable s k) (whenTable t k') := by
  cases hvalid : s.tvalid with
  | false =>
    rw [whenTable_invalid k hvalid, whenTable_invalid k' (h.tvalid.trans hvalid)]
    exact (h.reject .noTable).next
  | true =>
    rw [whenTable_valid k hvalid, whenTable_valid k' (h.tvalid.trans hvalid)]
    exact hk hvalid

theorem Twin.acceptBuild : Twin (acceptBuild s) (acceptBuild t) :=
  { h with err := rfl, tvalid := rfl, op := rfl, table := nofun, acc := nofun }

/-- Rule R120: CRC_IN enters the two datapaths mirrored. -/
theorem Twin.acceptCompute : Twin (acceptCompute s) (acceptCompute t) :=
  { h with
    err := rfl
    op := rfl
    acc := fun _ => by
      rw [acceptCompute_acc, acceptCompute_acc, h.endian_eq, h.isLe, h.crcIn]
      rfl
    cur := congrArg BitVec.toNat h.addr
    rem := congrArg BitVec.toNat h.len
    raced := rfl }

/-- Rule R56: TDATA holds the entry in stored orientation. -/
theorem Twin.readEntry (hvalid : s.tvalid = true) :
    Twin ((Machine.accept s).setTdata (lookup s.table (tidxRow s.tidx) (tidxCol s.tidx)))
      ((Machine.accept t).setTdata (lookup t.table (tidxRow t.tidx) (tidxCol t.tidx))) :=
  { h with
    err := rfl
    tdata := by
      show lookup t.table (tidxRow t.tidx) (tidxCol t.tidx) = _
      rw [h.tidx]
      exact h.mirrored hvalid _ _ }

theorem Twin.exec (i : Instr) : Matched (exec i s) (exec i t) := by
  cases i with
  | nop =>
    simp only [Machine.exec, execNop]
    exact h.whenIdle h.accept.next
  | build =>
    simp only [Machine.exec, execBuild]
    exact h.whenIdle h.acceptBuild.next
  | rdtab =>
    simp only [Machine.exec, execRdtab]
    exact h.whenIdle (h.whenTable fun hvalid => (h.readEntry hvalid).next)
  | compute =>
    simp only [Machine.exec, execCompute]
    refine h.whenIdle (h.whenTable fun _ => ?_)
    by_cases hrange : rangeOk s
    · rw [if_pos hrange, if_pos (h.rangeOk_iff.mpr hrange)]
      exact h.acceptCompute.next
    · rw [if_neg hrange, if_neg (mt h.rangeOk_iff.mp hrange)]
      exact (h.reject .range).next

theorem Twin.issue (v : Word) : Matched (issue v s) (issue v t) := by
  simp only [Machine.issue]
  cases decode v with
  | cmd i => exact h.exec i
  | illegal => exact h.whenIdle (h.reject .illegal).next

theorem Twin.regWrite (off : Nat) (v : Word) : Matched (regWrite off v s) (regWrite off v t) := by
  simp only [Machine.regWrite]
  cases regAt off with
  | none => exact h.next
  | some r =>
    cases r with
    | cmd => exact h.issue v
    | crcIn => exact Twin.next { h with crcIn := rfl }
    | addr => exact Twin.next { h with addr := rfl }
    | len => exact Twin.next { h with len := rfl }
    | tidx => exact Twin.next { h with tidx := rfl }
    | status | crcOut | tdata | errAddr => exact h.next

/-! The turns -/

theorem Twin.hostStore (a : Nat) (b : Byte) : Matched (hostStore a b s) (hostStore a b t) := by
  by_cases ha : a < memSize s
  · rw [hostStore_inside ha, hostStore_inside (h.memSize_eq ▸ ha)]
    exact Twin.next { h with
      mem := congrArg (·.write a b) h.mem
      raced := by simp only [h.op, h.mem, h.raced] }
  · rw [hostStore_outside ha, hostStore_outside (h.memSize_eq ▸ ha)]
    rfl

theorem Twin.hostStep : Matched (hostStep s) (hostStep t) := by
  cases hhost : s.host with
  | nil =>
    simp only [Machine.hostStep, h.host, hhost]
    exact h.next
  | cons op rest =>
    have hrest := h.setHost rest
    cases op <;> simp only [Machine.hostStep, h.host, hhost]
    case write off width v =>
      cases accessRefusal off width with
      | some r => rfl
      | none => exact hrest.regWrite off v
    case read off width =>
      cases accessRefusal off width with
      | some r => rfl
      | none => exact (hrest.noteRegRead off).next
    case poll =>
      rw [statusWord_bit0, statusWord_bit0, h.busyFlag_eq]
      cases busyFlag s with
      | true => exact (h.noteRegRead _).next
      | false => exact (hrest.noteRegRead _).next
    case store a b => exact hrest.hostStore a b

theorem Twin.buildDone : Twin (buildDone s) (buildDone t) :=
  { h with
    tvalid := rfl
    op := rfl
    table := fun _ => mirrored_storedTable h.isLe h.cfg
    acc := nofun }

/-- Rule R126: FINISH undoes the mirroring. -/
theorem Twin.finish (hop : s.op = .computing) : Twin (finish s) (finish t) := by
  have hout : orient t.cfg.endian t.acc = orient s.cfg.endian s.acc := by
    rw [h.endian_eq, h.isLe, h.acc hop]
    exact rev8_rev8 s.acc
  exact Twin.freeWork (s := (s.setCrcOut _).setOp .idle) (t := (t.setCrcOut _).setOp .idle)
    { h with crcOut := hout, op := rfl, acc := nofun } nofun

theorem Twin.abort (a : Nat) : Twin (abort a s) (abort a t) :=
  Twin.freeWork (s := ((s.setErr _).setErrAddr _).setOp .idle) (t := ((t.setErr _).setErrAddr _).setOp .idle)
    { h with err := rfl, errAddr := rfl, op := rfl, acc := nofun } nofun

theorem Twin.noteRead (a : Nat) (sz : ReadSize) : Twin (noteRead s a sz) (noteRead t a sz) :=
  { h with reads := congrArg (List.cons (ReadReq.mk a sz)) h.reads, draws := congrArg (· + sz.bytes) h.draws }

/-- Rules R122 to R125, R127: the same request, the same answer, and mirrored accumulators. -/
theorem Twin.bufferStep (sz : ReadSize) (hop : s.op = .computing) (hvalid : s.tvalid = true) :
    Matched (bufferStep sz s) (bufferStep sz t) := by
  have hbound : t.cur + sz.bytes ≤ memSize t ↔ s.cur + sz.bytes ≤ memSize s := by rw [h.cur, h.memSize_eq]
  have hverdict : busFaulted t.busFaults t.cur sz = busFaulted s.busFaults s.cur sz := by rw [h.busFaults, h.cur]
  rcases bufferStep_cases sz s with ⟨hin, e⟩ | ⟨hin, hf, e⟩ | ⟨hin, hf, e⟩
  · rw [e, bufferStep_outside (mt hbound.mp hin), h.cur]
    rfl
  · rw [e, bufferStep_fault (hbound.mpr hin) (hverdict.trans hf), h.cur]
    exact ((h.noteRead _ _).abort _).next
  · rw [e, bufferStep_data (hbound.mpr hin) (hverdict.trans hf)]
    exact Twin.next { h with
      acc := fun _ => by
        simp only [h.endian_eq, h.isLe, h.acc hop, h.raceRead_eq, h.cur, h.draws]
        exact (h.mirrored hvalid).combine sz s.acc _
      cur := congrArg (· + sz.bytes) h.cur
      rem := congrArg (· - sz.bytes) h.rem
      reads := by simp only [h.cur, h.reads]
      draws := congrArg (· + sz.bytes) h.draws }

theorem Twin.engineStep (hvalid : s.op = .computing → s.tvalid = true) :
    Matched (engineStep s) (engineStep t) := by
  cases hop : s.op with
  | idle =>
    rw [engineStep_idle hop, engineStep_idle (h.op.trans hop)]
    exact h.next
  | building =>
    rw [engineStep_building hop, engineStep_building (h.op.trans hop)]
    exact h.buildDone.next
  | computing =>
    by_cases h0 : s.rem = 0
    · rw [engineStep_finish hop h0, engineStep_finish (h.op.trans hop) (h.rem.trans h0)]
      exact (h.finish hop).next
    · rw [engineStep_reads hop h0, engineStep_reads (h.op.trans hop) (h.rem ▸ h0), h.nextSize_eq]
      exact h.bufferStep _ hop (hvalid hop)

/-- Rule R133, one step, whoever's turn it is. -/
theorem Twin.step (hs : Inv s) : Matched (step s) (step t) := by
  have hpop := h.popTurn
  rw [step_eq, step_eq, h.turnOf_eq]
  cases turnOf s with
  | host => exact hpop.hostStep
  | engine => exact hpop.engineStep hs.computingValid
  | reset => exact hpop.resetEvent.next
  | bus regions => exact Twin.next { hpop with busFaults := rfl }

end

/-- Settles O55: a step is one turn, and each turn keeps twins. -/
theorem endianTwinsStayTogether : Obligations.EndianTwinsStayTogether := by
  unfold Obligations.EndianTwinsStayTogether
  exact fun _ _ hs h => h.step hs

theorem Twin.run (k : Nat) : ∀ s t u : State, Inv s → Twin s t → run k s = .next u →
    ∃ v, run k t = .next v ∧ Twin u v := by
  induction k with
  | zero =>
    intro s t u _ h hrun
    cases hrun
    exact ⟨t, rfl, h⟩
  | succ k ih =>
    intro s t u hs h hrun
    have hstep := h.step hs
    cases e : Machine.step s with
    | fault r => simp [Machine.run, e] at hrun
    | refused r => simp [Machine.run, e] at hrun
    | next s' =>
      rw [e] at hstep
      obtain ⟨t', e', h'⟩ := hstep
      simp only [Machine.run, e] at hrun
      simp only [Machine.run, e']
      exact ih s' t' u ((step_happens e).keeps_inv hs) h' hrun

/-- Settles O56: twins stay twins over the run, and twins agree on the four. -/
theorem crcOutIndependentOfEndian : Obligations.CrcOutIndependentOfEndian := by
  unfold Obligations.CrcOutIndependentOfEndian
  intro k s t u hs h hrun
  obtain ⟨v, hv, huv⟩ := Twin.run k s t u hs h hrun
  exact ⟨v, hv, huv.crcOut, huv.err, huv.errAddr, huv.reads⟩

end Sys2Proof.Machine

/-! The host's side (43_host_interface.md): what each command and its rejections write, command issue (rule R162), the
register window (rules R160, R161), CMD writes and polls as events, the pseudo-instructions (rule R169), and the
operand registers an operation no longer reads (rule R166). -/

namespace Sys2Proof.Machine

/-! A running operation and the operand registers -/

/-- The state with other values in CRC_IN, ADDR, LEN and TIDX. -/
def withOperands (s : State) (i a n x : Word) : State := { s with crcIn := i, addr := a, len := n, tidx := x }

theorem bufferStep_withOperands {s t : State} {sz : ReadSize} (i a n x : Word) (h : bufferStep sz s = .next t) :
    bufferStep sz (withOperands s i a n x) = .next (withOperands t i a n x) := by
  rcases bufferStep_cases sz s with ⟨-, e⟩ | ⟨hin, hf, e⟩ | ⟨hin, hf, e⟩
  all_goals
    rw [e] at h
    cases h
  · exact bufferStep_fault (s := withOperands s i a n x) hin hf
  · exact bufferStep_data (s := withOperands s i a n x) hin hf

theorem engineStep_withOperands {s t : State} (i a n x : Word) (h : engineStep s = .next t) :
    engineStep (withOperands s i a n x) = .next (withOperands t i a n x) := by
  cases hop : s.op with
  | idle =>
    rw [engineStep_idle hop] at h
    cases h
    exact engineStep_idle (s := withOperands s i a n x) hop
  | building =>
    rw [engineStep_building hop] at h
    cases h
    exact engineStep_building (s := withOperands s i a n x) hop
  | computing =>
    by_cases h0 : s.rem = 0
    · rw [engineStep_finish hop h0] at h
      cases h
      exact engineStep_finish (s := withOperands s i a n x) hop h0
    · rw [engineStep_reads hop h0] at h
      exact (engineStep_reads (s := withOperands s i a n x) hop h0).trans (bufferStep_withOperands i a n x h)

/-- Settles O35: whether it builds, finishes or reads, the engine's step uses none of the four registers. -/
theorem runningOperationIgnoresOperandRegisters : Obligations.RunningOperationIgnoresOperandRegisters := by
  unfold Obligations.RunningOperationIgnoresOperandRegisters
  exact fun _ _ i a n x => engineStep_withOperands i a n x

/-! Each command, accepted and rejected -/

theorem exec_busy {s : State} (i : Instr) (hop : s.op ≠ .idle) : exec i s = .next (reject .busy s) := by
  cases i with
  | nop => simp only [exec, execNop, whenIdle_busy _ hop]
  | build => simp only [exec, execBuild, whenIdle_busy _ hop]
  | compute => simp only [exec, execCompute, whenIdle_busy _ hop]
  | rdtab => simp only [exec, execRdtab, whenIdle_busy _ hop]

theorem exec_nop_idle {s : State} (hop : s.op = .idle) : exec .nop s = .next (accept s) := by
  simp only [exec, execNop, whenIdle_idle _ hop]

theorem whenTable_eq_ite (s : State) (k : State → Out) :
    whenTable s k = if s.tvalid = false then .next (reject .noTable s) else k s := by
  cases hvalid : s.tvalid with
  | false => rw [whenTable_invalid k hvalid, if_pos rfl]
  | true => rw [whenTable_valid k hvalid, if_neg nofun]

theorem exec_compute_idle {s : State} (hop : s.op = .idle) :
    exec .compute s =
      if s.tvalid = false then .next (reject .noTable s)
      else if ¬ rangeOk s then .next (reject .range s)
      else .next (acceptCompute s) := by
  simp only [exec, execCompute, whenIdle_idle _ hop, whenTable_eq_ite, ite_not]

theorem exec_rdtab_idle {s : State} (hop : s.op = .idle) :
    exec .rdtab s =
      if s.tvalid = false then .next (reject .noTable s)
      else .next ((accept s).setTdata (lookup s.table (tidxRow s.tidx) (tidxCol s.tidx))) := by
  simp only [exec, execRdtab, whenIdle_idle _ hop, whenTable_eq_ite]

/-- Settles O12: while IDLE the one check of NOP passes. -/
theorem nopOnlyClearsErr : Obligations.NopOnlyClearsErr := by
  unfold Obligations.NopOnlyClearsErr
  intro s hop
  rw [exec_nop_idle hop, accept_eq]

/-- Settles O15: both checks pass, and the index fields of rule R74 are ROW and COL of TIDX. -/
theorem rdtabCopiesTheIndexedEntry : Obligations.RdtabCopiesTheIndexedEntry := by
  unfold Obligations.RdtabCopiesTheIndexedEntry
  intro s hop hvalid
  exact (exec_rdtab_idle hop).trans (if_neg (ne_false_of_eq_true hvalid))

/-! What a command may change. A check rejects or goes on, so what its rejection and the rest of the command both meet,
the command meets. -/

theorem whenIdle_next {P : State → Prop} {s : State} {k : State → Out} (hreject : P (reject .busy s))
    (hrest : ∃ t, k s = .next t ∧ P t) : ∃ t, whenIdle s k = .next t ∧ P t := by
  by_cases hop : s.op = .idle
  · exact whenIdle_idle k hop ▸ hrest
  · exact ⟨_, whenIdle_busy k hop, hreject⟩

theorem whenTable_next {P : State → Prop} {s : State} {k : State → Out} (hreject : P (reject .noTable s))
    (hrest : ∃ t, k s = .next t ∧ P t) : ∃ t, whenTable s k = .next t ∧ P t := by
  cases hvalid : s.tvalid with
  | true => exact whenTable_valid k hvalid ▸ hrest
  | false => exact ⟨_, whenTable_invalid k hvalid, hreject⟩

/-- Settles O16: the rejections write ERR, and each acceptance only what its rule lists. -/
theorem commandsChangeOnlyWhatTheyList : Obligations.CommandsChangeOnlyWhatTheyList := by
  unfold Obligations.CommandsChangeOnlyWhatTheyList
  intro s
  simp only [exec, execNop, execBuild, execCompute, execRdtab]
  refine ⟨?nop, ?build, ?compute, ?rdtab⟩
  case nop => exact whenIdle_next rfl ⟨_, rfl, accept_eq s⟩
  case build => exact whenIdle_next rfl ⟨_, rfl, acceptBuild_eq s⟩
  case rdtab => exact whenIdle_next rfl (whenTable_next rfl ⟨_, rfl, rfl⟩)
  case compute =>
    refine whenIdle_next rfl (whenTable_next rfl ?_)
    by_cases hrange : rangeOk s
    · exact ⟨_, if_pos hrange, acceptCompute_eq s⟩
    · exact ⟨_, if_neg hrange, reject_eq .range s⟩

/-! Command issue -/

theorem issue_of_decode {v : Word} {i : Instr} (s : State) (hd : decode v = .cmd i) : issue v s = exec i s := by
  simp only [issue, hd]

theorem issue_of_illegal {v : Word} {why : Illegal} {s : State} (hd : decode v = .illegal why) (hop : s.op = .idle) :
    issue v s = .next (reject .illegal s) := by
  simp only [issue, hd, issueIllegal, whenIdle_idle _ hop]

theorem issue_busy {s : State} (v : Word) (hop : s.op ≠ .idle) : issue v s = .next (reject .busy s) := by
  cases hd : decode v with
  | cmd i => exact (issue_of_decode s hd).trans (exec_busy i hop)
  | illegal => simp only [issue, hd, issueIllegal, whenIdle_busy _ hop]

/-- Rule R185, as the condition of the rejection. -/
theorem not_rangeOk_iff {s : State} :
    ¬ rangeOk s ↔ s.len.toNat ≠ 0 ∧ s.addr.toNat + s.len.toNat > 2 ^ s.cfg.addrW := by
  rw [rangeOk, not_or, not_le, memSize]

theorem orient_eq_ite (e : Endian) (x : Word) : orient e x = if e = .le then x else rev8 x := by
  cases e with
  | le | be => rfl

/-- Settles O8, check by check: the first that fails rejects, and with none left the command is accepted. -/
theorem issueChecksInOrder : Obligations.IssueChecksInOrder := by
  unfold Obligations.IssueChecksInOrder
  intro v s
  by_cases hbusy : s.op ≠ .idle
  · rw [if_pos hbusy]
    exact issue_busy v hbusy
  have hop : s.op = .idle := not_not.mp hbusy
  rw [if_neg hbusy]
  cases hd : decode v with
  | illegal why => exact issue_of_illegal hd hop
  | cmd i =>
    rw [issue_of_decode s hd]
    cases i with
    | nop => exact exec_nop_idle hop
    | build => exact exec_build_idle hop
    | compute =>
      simp only [← not_rangeOk_iff, ← orient_eq_ite]
      exact exec_compute_idle hop
    | rdtab => exact exec_rdtab_idle hop

/-! The register window -/

/-- Rule R20: seven of the sixteen slots hold no register. -/
theorem regAt_unmapped : ∀ off ∈ [0x48, 0x50, 0x58, 0x60, 0x68, 0x70, 0x78], regAt off = none := by decide

theorem regWrite_unmapped {off : Nat} (v : Word) (s : State) (h : regAt off = none) : regWrite off v s = .next s := by
  simp only [regWrite, h]

theorem regRead_unmapped {off : Nat} (s : State) (h : regAt off = none) : regRead off s = 0 := by
  simp only [regRead, h]

/-- Settles O17, register by register, and the unmapped slots by the map of the window. -/
theorem registerWrites : Obligations.RegisterWrites := by
  unfold Obligations.RegisterWrites
  intro s v
  refine ⟨rfl, rfl, rfl, rfl, rfl, ?readOnly, fun off hoff => regWrite_unmapped v s (regAt_unmapped off hoff)⟩
  simp only [List.forall_mem_cons]
  exact ⟨rfl, rfl, rfl, rfl, nofun⟩

/-- Settles O18, register by register, and the unmapped slots by the map of the window. -/
theorem registerReadValues : Obligations.RegisterReadValues := by
  unfold Obligations.RegisterReadValues
  intro s
  exact ⟨rfl, rfl, rfl, rfl, rfl, rfl, rfl, rfl, rfl, fun off hoff => regRead_unmapped s (regAt_unmapped off hoff)⟩

/-! CMD writes and polls as events -/

theorem hostStep_command {s : State} {w : Word} {i : Instr} {rest : List HostOp} (hd : decode w = .cmd i)
    (hhost : s.host = .write 0x00 64 w :: rest) : hostStep s = exec i (s.setHost rest) := by
  simp only [hostStep, hhost]
  exact issue_of_decode (s.setHost rest) hd

theorem withFetchWord_eq (s : State) (w : Word) :
    s.withFetchWord 64 w.toNat = { s with sched := .host :: s.sched, host := .write 0x00 64 w :: s.host } := by
  have hw : BitVec.ofNat 64 (w.toNat % 2 ^ 64) = w := by
    rw [Nat.mod_eq_of_lt w.isLt, BitVec.ofNat_toNat, BitVec.setWidth_eq]
  rw [State.withFetchWord, placeCommand, hw]
  rfl

/-- With the interleaving used up the host has the turn while IDLE (log entry 10). -/
theorem step_host_default {s : State} (p : List HostOp) (hop : s.op = .idle) :
    step { s with sched := [], host := p } = hostStep { s with sched := [], host := p } := by
  have hturn : defaultTurn { s with host := p } = .host := by simp only [defaultTurn, hop]
  have hstep := step_default { s with host := p }
  rw [hturn] at hstep
  exact hstep

theorem step_command {w : Word} {i : Instr} (hd : decode w = .cmd i) (s : State) (ts : List Turn)
    (rest : List HostOp) :
    step { s with sched := .host :: ts, host := .write 0x00 64 w :: rest } =
      exec i { s with sched := ts, host := rest } :=
  (step_host s ts _).trans (hostStep_command hd rfl)

/-- Settles O7: each of the three steps is a turn of the host whose next transaction is the CMD write. -/
theorem stepRunsTheDecodedCommand : Obligations.StepRunsTheDecodedCommand := by
  unfold Obligations.StepRunsTheDecodedCommand
  intro s w i rest hd
  refine ⟨fun ts => step_command hd s ts rest, fun hop => (step_host_default _ hop).trans (hostStep_command hd rfl), ?_⟩
  rw [withFetchWord_eq]
  exact step_command hd s s.sched s.host

theorem hostStep_poll_busy {s : State} {rest : List HostOp} (hhost : s.host = .poll :: rest) (hop : s.op ≠ .idle) :
    hostStep s = .next (noteRegRead (offsetOf .status) s) := by
  have hbusy : busyFlag s = true := busyFlag_eq_true.mpr hop
  simp only [hostStep, hhost, statusWord_bit0, if_pos hbusy]

theorem hostStep_poll_idle {s : State} {rest : List HostOp} (hhost : s.host = .poll :: rest) (hop : s.op = .idle) :
    hostStep s = .next (noteRegRead (offsetOf .status) (s.setHost rest)) := by
  have hclear : ¬ busyFlag s = true := fun hbusy => busyFlag_eq_true.mp hbusy hop
  simp only [hostStep, hhost, statusWord_bit0, if_neg hclear]

/-- Settles O23: BUSY is op, and the read the poll makes is the one of STATUS. -/
theorem pollEndsAtBusyClear : Obligations.PollEndsAtBusyClear := by
  unfold Obligations.PollEndsAtBusyClear
  intro s ts rest
  rw [step_host]
  exact ⟨fun hop => hostStep_poll_busy rfl hop, fun hop => hostStep_poll_idle rfl hop⟩

/-! The pseudo-instructions -/

/-- Settles O24: each command's word and each register's offset are those the table writes out. -/
theorem pseudoInstructionsExpand : Obligations.PseudoInstructionsExpand := by
  unfold Obligations.PseudoInstructionsExpand
  have hbuild : encode .build = 0x1#64 := rfl
  have hnop : encode .nop = 0x0#64 := rfl
  have hcompute : encode .compute = 0x2#64 := rfl
  have hrdtab : encode .rdtab = 0x3#64 := rfl
  simp only [expand, wrReg, rdReg, txnW, txnR, offsetOf, hbuild, hnop, hcompute, hrdtab, and_self, implies_true]

end Sys2Proof.Machine

/-! The rejections of a CMD write (60_exceptions.md): ILLEGAL (rule R182), BUSY (rule R183), NOTABLE (rule R184) and
RANGE (rule R185), each writing its code to ERR and nothing else. -/

namespace Sys2Proof.Machine

/-- Rule R160: a write at offset 0x00 issues the word. -/
theorem regWrite_cmd (v : Word) (s : State) : regWrite 0x00 v s = issue v s := rfl

theorem exec_compute_noTable {s : State} (hop : s.op = .idle) (hinvalid : s.tvalid = false) :
    exec .compute s = .next (reject .noTable s) :=
  (exec_compute_idle hop).trans (if_pos hinvalid)

theorem exec_rdtab_noTable {s : State} (hop : s.op = .idle) (hinvalid : s.tvalid = false) :
    exec .rdtab s = .next (reject .noTable s) :=
  (exec_rdtab_idle hop).trans (if_pos hinvalid)

theorem exec_compute_outOfRange {s : State} (hop : s.op = .idle) (hvalid : s.tvalid = true) (hrange : ¬ rangeOk s) :
    exec .compute s = .next (reject .range s) := by
  rw [exec_compute_idle hop, if_neg (ne_false_of_eq_true hvalid), if_pos hrange]

/-- Rule R185's check, with LEN = 0 as an equation of words. -/
theorem rangeOk_iff_len_eq_zero_or {s : State} :
    rangeOk s ↔ s.len = 0 ∨ s.addr.toNat + s.len.toNat ≤ 2 ^ s.cfg.addrW := by
  rw [rangeOk, memSize, ← BitVec.toNat_inj, BitVec.ofNat_eq_ofNat, BitVec.toNat_zero]

/-- Settles O9: such a word is no command's, and while IDLE only its rejection remains. -/
theorem illegalWordOnlySetsErr : Obligations.IllegalWordOnlySetsErr := by
  unfold Obligations.IllegalWordOnlySetsErr
  intro s w hop hnop hbuild hcompute hrdtab
  obtain ⟨-, -, -, -, hother⟩ := legalWordsAreExactlyFour
  obtain ⟨why, hdecode⟩ := hother w hnop hbuild hcompute hrdtab
  exact (regWrite_cmd w s).trans (issue_of_illegal hdecode hop)

/-- Settles O10: the busy check comes first, for a command and for a word that is none. -/
theorem busyRejectsEveryWord : Obligations.BusyRejectsEveryWord := by
  unfold Obligations.BusyRejectsEveryWord
  intro s w hop
  exact (regWrite_cmd w s).trans (issue_busy w hop)

/-- Settles O11, check by check: no valid table, then a buffer outside MEM, then acceptance. -/
theorem noTableAndRangeRejections : Obligations.NoTableAndRangeRejections := by
  unfold Obligations.NoTableAndRangeRejections
  intro s hop
  refine ⟨?noTable, ?range, ?accepted⟩
  case noTable => exact fun hinvalid => ⟨exec_compute_noTable hop hinvalid, exec_rdtab_noTable hop hinvalid⟩
  case range =>
    intro hvalid hlen hsum
    have hrange : ¬ rangeOk s := fun hok => (rangeOk_iff_len_eq_zero_or.mp hok).elim hlen hsum.not_ge
    exact exec_compute_outOfRange hop hvalid hrange
  case accepted =>
    intro hvalid hok
    have hrange : rangeOk s := rangeOk_iff_len_eq_zero_or.mpr hok
    exact ⟨_, exec_compute_accepted hop hvalid hrange, acceptCompute_op s, acceptCompute_err s⟩

end Sys2Proof.Machine

/-! Reset and hazards (70_reset_and_hazards.md): the reset event ends any operation (rules R210, R211), and every
operation is over after a bounded number of engine steps (rules R222, R224). -/

namespace Sys2Proof.Machine

theorem step_reset (s : State) (ts : List Turn) :
    step { s with sched := .reset :: ts } = .next (resetEvent { s with sched := ts }) :=
  step_turn s .reset ts

/-- Settles O2: a reset turn always answers, and its value in each field is the simp lemma of `resetEvent` for that field. -/
theorem resetEventEndsAnyOperation : Obligations.ResetEventEndsAnyOperation := by
  unfold Obligations.ResetEventEndsAnyOperation
  intro s ts
  exact ⟨_, step_reset s ts, by simp⟩

/-- BUILD_DONE at the head of an engine run (rule R104). -/
theorem engineRun_buildDone (k : Nat) {s : State} (hop : s.op = .building) :
    engineRun (k + 1) s = run k (buildDone { s with sched := List.replicate k .engine }) := by
  rw [engineRun_succ, engineStep_building (s := { s with sched := List.replicate k .engine }) hop]

/-- Rules R130, R222: one step for each read still planned, cut short by an ABORT, and one for FINISH. -/
theorem engineRun_completes (plan : List ReadReq) : ∀ s : State, s.op = .computing → CursorInside s →
    readPlan s.cur s.rem = plan → ∃ k t, k ≤ plan.length + 1 ∧ engineRun k s = .next t ∧ t.op = .idle := by
  induction plan with
  | nil =>
    intro s hop _ hplan
    exact ⟨1, _, Nat.le_refl 1, engineRun_finish 0 hop (rem_eq_zero_of_plan hplan), rfl⟩
  | cons r rs ih =>
    intro s hop hin hplan
    have h0 := rem_ne_zero_of_plan hplan
    have hread := hin.read_inside h0
    cases hf : busFaulted s.busFaults s.cur (nextSize s) with
    | true => exact ⟨1, _, Nat.le_add_left 1 _, engineRun_fault 0 hop h0 hread hf, rfl⟩
    | false =>
      obtain ⟨-, hrest⟩ := plan_of_next hplan
      obtain ⟨k, t, hk, hrun, hidle⟩ := ih (afterRead s) hop (hin.afterRead h0) hrest
      exact ⟨k + 1, t, Nat.succ_le_succ hk, (engineRun_data k hop h0 hread hf).trans hrun, hidle⟩

/-- Settles O53: a build takes BUILD_DONE alone, and the plan of a COMPUTE holds at most one read per byte left. -/
theorem everyOperationCompletes : Obligations.EveryOperationCompletes := by
  unfold Obligations.EveryOperationCompletes
  intro s hs
  refine ⟨fun hop => ⟨_, engineRun_buildDone 0 hop, rfl, rfl⟩, fun hop => ?_⟩
  obtain ⟨k, t, hk, hrun, hidle⟩ := engineRun_completes _ s hop (hs.cursorInside hop) rfl
  exact ⟨k, t, hk.trans (Nat.succ_le_succ (readPlan_length_le s.cur s.rem)), hrun, hidle⟩

end Sys2Proof.Machine
